-- ==== Sys2Proof/Word.lean ====
section
/-! DEFINITION. The word types of CRC16-FE: every value of the spec is an unsigned bit vector (00_scope.md R8). -/

namespace Sys2Proof

/-- A 32-bit register word, the width of the data bus (R6, R30). -/
abbrev Word := BitVec 32

/-- A 16-bit value: the CRC accumulator, the byte counter, a frame's length, offset and CRC fields (R6, R22). -/
abbrev Half := BitVec 16

/-- One byte: a payload byte or a frame byte (R10, R22). -/
abbrev Byte := BitVec 8

/-- A byte offset in the 256-byte register window (R40). -/
abbrev Offset := BitVec 8

/-- The 43-bit transaction word of one bus access (R60). -/
abbrev TW := BitVec 43

end Sys2Proof
end

