-- ==== Sys2Proof/Syntax.lean ====
section
/-! DEFINITION. The operations of CRC16-FE: one constructor per row of spec/opcode_table.json (30_encoding.md R66).
A constructor holds the fields its rule names as operands; reserved and ignored bits are not operands, since a field with
a nonzero reserved part decodes as if that part were zero (R61). See log 7. -/

namespace Sys2Proof

/-- One host bus access (R60). -/
inductive Instr where
  /-- CMD write, OP 0x00 (R140). -/
  | nop
  /-- CMD write, OP 0x01, with OFFSET = DATA[31:16] (R116, R62). -/
  | encFlash (offset : Half)
  /-- CMD write, OP 0x02 (R117). -/
  | encReset
  /-- CMD write, OP 0x03 (R118). -/
  | encLoad
  /-- CMD write, OP 0x10 (R87). -/
  | crcInit
  /-- CMD write whose OP is reserved (R143). -/
  | illegalCmd (op : Byte)
  /-- DATA write, BYTE = DATA[7:0] (R88, R63). -/
  | crcByte (byte : Byte)
  /-- STATUS write, m = DATA (R142). -/
  | clrErr (m : Word)
  /-- Read of CMD, offset 0x00 (R145). -/
  | rdCmd
  /-- Read of DATA, offset 0x04 (R145). -/
  | rdData
  /-- Read of CRC, offset 0x08 (R89). -/
  | rdCrc
  /-- Read of LEN, offset 0x0C (R90). -/
  | rdLen
  /-- Read of STATUS, offset 0x10 (R141). -/
  | rdStatus
  /-- Read of FRAME_LO, offset 0x14 (R119). -/
  | rdFrameLo
  /-- Read of FRAME_HI, offset 0x18 (R120). -/
  | rdFrameHi
  /-- Write to CRC, ignored (R144). -/
  | wrCrcIgn
  /-- Write to LEN, ignored (R144). -/
  | wrLenIgn
  /-- Write to FRAME_LO, ignored (R144). -/
  | wrFrameLoIgn
  /-- Write to FRAME_HI, ignored (R144). -/
  | wrFrameHiIgn
  /-- Read of the reserved slot at `off` (R146). -/
  | rdRsv (off : Offset)
  /-- Write to the reserved slot at `off` (R146). -/
  | wrRsv (off : Offset)
  /-- An 8-bit access (R43, R162). -/
  | buserrSize8 (we : Bool) (off : Offset)
  /-- A 16-bit access (R43, R162). -/
  | buserrSize16 (we : Bool) (off : Offset)
  /-- An access of the reserved size code (R43, R162). -/
  | buserrSizeRsv (we : Bool) (off : Offset)
  /-- A 32-bit access with off[1:0] = 01 (R44, R162). -/
  | buserrAlign1 (we : Bool) (off : Offset)
  /-- A 32-bit access with off[1:0] = 10 (R44, R162). -/
  | buserrAlign2 (we : Bool) (off : Offset)
  /-- A 32-bit access with off[1:0] = 11 (R44, R162). -/
  | buserrAlign3 (we : Bool) (off : Offset)
deriving DecidableEq, Repr

end Sys2Proof
end

