-- ==== Sys2Proof/WellFormed.lean ====
section
/-! DEFINITION. Which terms of Instr stand for an encoding: the operand of a reserved-opcode, reserved-slot or
misaligned access lies in the range its row has (30_encoding.md R65, R67; 20_memory.md R44). -/

namespace Sys2Proof

/-- The OP values that name an operation (R65). Every other value is reserved. -/
def namedOps : List Byte := [0x00#8, 0x01#8, 0x02#8, 0x03#8, 0x10#8]

/-- The reserved word slots 0x1C to 0xFC (R30, R146). -/
def slotReserved (off : Offset) : Bool := off.extractLsb' 0 2 == 0#2 && decide (0x1C#8 ≤ off)

/-- The check of an instruction's operands. -/
def Instr.wf : Instr → Bool
  | .illegalCmd op => !namedOps.contains op
  | .rdRsv off => slotReserved off
  | .wrRsv off => slotReserved off
  | .buserrAlign1 _ off => off.extractLsb' 0 2 == 1#2
  | .buserrAlign2 _ off => off.extractLsb' 0 2 == 2#2
  | .buserrAlign3 _ off => off.extractLsb' 0 2 == 3#2
  | .nop | .encFlash _ | .encReset | .encLoad | .crcInit | .crcByte _ | .clrErr _ => true
  | .rdCmd | .rdData | .rdCrc | .rdLen | .rdStatus | .rdFrameLo | .rdFrameHi => true
  | .wrCrcIgn | .wrLenIgn | .wrFrameLoIgn | .wrFrameHiIgn => true
  | .buserrSize8 _ _ | .buserrSize16 _ _ | .buserrSizeRsv _ _ => true

/-- A term some transaction word decodes to. -/
abbrev Instr.WellFormed (i : Instr) : Prop := i.wf = true

end Sys2Proof
end

