-- ==== Sys2Proof/Decode.lean ====
section
/-! DEFINITION. The transaction word, its decoder and its encoder (30_encoding.md R60 to R69), and the opcode table of
R66 as data, so that the two descriptions of decoding can be compared. -/

namespace Sys2Proof

/-! ### The fields of a transaction word (R60) -/

/-- SIZE = TW[42:41]. -/
def twSize (w : TW) : BitVec 2 := w.extractLsb' 41 2

/-- W = TW[40]. -/
def twWrite (w : TW) : Bool := w.getLsbD 40

/-- ADDR = TW[39:32]. -/
def twAddr (w : TW) : Offset := w.extractLsb' 32 8

/-- DATA = TW[31:0]. -/
def twData (w : TW) : Word := w.extractLsb' 0 32

/-- The word with these four fields. -/
def mkTW (size : BitVec 2) (we : Bool) (off : Offset) (data : Word) : TW :=
  size ++ BitVec.ofBool we ++ off ++ data

/-! ### The operand fields of the written word (R61 to R63) -/

/-- OP = DATA[7:0] of a CMD write (R31, R61). -/
def opField (d : Word) : Byte := d.extractLsb' 0 8

/-- OFFSET = DATA[31:16] of a CMD write, taken as is (R62). -/
def offsetField (d : Word) : Half := d.extractLsb' 16 16

/-- `off[1:0]`, which the alignment check tests (R44). -/
def offLow (off : Offset) : BitVec 2 := off.extractLsb' 0 2

/-- BYTE = DATA[7:0] of a DATA write (R63). -/
def byteField (d : Word) : Byte := d.extractLsb' 0 8

/-! ### Decode (R67) -/

/-- A CMD write, by its OP (R65, R67): priority 2, then ILLEGAL_CMD at priority 3. -/
def decodeCmd (d : Word) : Instr :=
  if opField d = 0x00#8 then .nop
  else if opField d = 0x01#8 then .encFlash (offsetField d)
  else if opField d = 0x02#8 then .encReset
  else if opField d = 0x03#8 then .encLoad
  else if opField d = 0x10#8 then .crcInit
  else .illegalCmd (opField d)

/-- An aligned 32-bit write (R67). -/
def decodeWrite (off : Offset) (d : Word) : Instr :=
  if off = 0x00#8 then decodeCmd d
  else if off = 0x04#8 then .crcByte (byteField d)
  else if off = 0x10#8 then .clrErr d
  else if off = 0x08#8 then .wrCrcIgn
  else if off = 0x0C#8 then .wrLenIgn
  else if off = 0x14#8 then .wrFrameLoIgn
  else if off = 0x18#8 then .wrFrameHiIgn
  else .wrRsv off

/-- An aligned 32-bit read (R67). -/
def decodeRead (off : Offset) : Instr :=
  if off = 0x00#8 then .rdCmd
  else if off = 0x04#8 then .rdData
  else if off = 0x08#8 then .rdCrc
  else if off = 0x0C#8 then .rdLen
  else if off = 0x10#8 then .rdStatus
  else if off = 0x14#8 then .rdFrameLo
  else if off = 0x18#8 then .rdFrameHi
  else .rdRsv off

/-- An access by its four fields: size first, then alignment, then the offset (R45, R67). -/
def decodeFields (size : BitVec 2) (we : Bool) (off : Offset) (d : Word) : Instr :=
  if size = 0b00#2 then .buserrSize8 we off
  else if size = 0b01#2 then .buserrSize16 we off
  else if size = 0b11#2 then .buserrSizeRsv we off
  else if offLow off = 0b01#2 then .buserrAlign1 we off
  else if offLow off = 0b10#2 then .buserrAlign2 we off
  else if offLow off = 0b11#2 then .buserrAlign3 we off
  else if we then decodeWrite off d
  else decodeRead off

/-- Decode, total on the 43-bit transaction words (R67). -/
def decode (w : TW) : Instr := decodeFields (twSize w) (twWrite w) (twAddr w) (twData w)

/-- Why a number is no transaction word. -/
inductive DecodeReject where
  /-- It has a bit above bit 42: TW has a fixed 43 bits (R69). -/
  | tooWide
deriving DecidableEq, Repr

/-- Decode of any number: one of more than 43 bits is rejected by name (R69; log 8). -/
def decodeNat (w : Nat) : Except DecodeReject Instr :=
  if w < 2 ^ 43 then .ok (decode (BitVec.ofNat 43 w)) else .error .tooWide

/-- What the decoder reads from the bits `w` of a row of the opcode table. -/
def decodeTableWord (_nbits w : Nat) : Option Instr := (decodeNat w).toOption

/-! ### Encode (R61, R66, R70): the canonical word, its ignored bits zero -/

/-- The word written by a CMD write (R31). -/
def cmdData (op : Byte) (offset : Half) : Word := offset ++ 0x00#8 ++ op

/-- A 32-bit write. -/
def encodeWrite (off : Offset) (d : Word) : TW := mkTW 0b10#2 true off d

/-- A 32-bit read; its DATA is 0 (R60). -/
def encodeRead (off : Offset) : TW := mkTW 0b10#2 false off 0#32

/-- The canonical transaction word of an instruction. -/
def encode : Instr → TW
  | .nop => encodeWrite 0x00#8 (cmdData 0x00#8 0#16)
  | .encFlash offset => encodeWrite 0x00#8 (cmdData 0x01#8 offset)
  | .encReset => encodeWrite 0x00#8 (cmdData 0x02#8 0#16)
  | .encLoad => encodeWrite 0x00#8 (cmdData 0x03#8 0#16)
  | .crcInit => encodeWrite 0x00#8 (cmdData 0x10#8 0#16)
  | .illegalCmd op => encodeWrite 0x00#8 (cmdData op 0#16)
  | .crcByte byte => encodeWrite 0x04#8 (byte.setWidth 32)
  | .clrErr m => encodeWrite 0x10#8 m
  | .rdCmd => encodeRead 0x00#8
  | .rdData => encodeRead 0x04#8
  | .rdCrc => encodeRead 0x08#8
  | .rdLen => encodeRead 0x0C#8
  | .rdStatus => encodeRead 0x10#8
  | .rdFrameLo => encodeRead 0x14#8
  | .rdFrameHi => encodeRead 0x18#8
  | .wrCrcIgn => encodeWrite 0x08#8 0#32
  | .wrLenIgn => encodeWrite 0x0C#8 0#32
  | .wrFrameLoIgn => encodeWrite 0x14#8 0#32
  | .wrFrameHiIgn => encodeWrite 0x18#8 0#32
  | .rdRsv off => encodeRead off
  | .wrRsv off => encodeWrite off 0#32
  | .buserrSize8 we off => mkTW 0b00#2 we off 0#32
  | .buserrSize16 we off => mkTW 0b01#2 we off 0#32
  | .buserrSizeRsv we off => mkTW 0b11#2 we off 0#32
  | .buserrAlign1 we off => mkTW 0b10#2 we off 0#32
  | .buserrAlign2 we off => mkTW 0b10#2 we off 0#32
  | .buserrAlign3 we off => mkTW 0b10#2 we off 0#32

/-! ### The opcode table (R66) -/

/-- One row of the table: a word selects it when `word & mask = mtch`. -/
structure Row where
  mtch : TW
  mask : TW
  priority : Nat
deriving DecidableEq, Repr

/-- Whether a word selects a row (R66). -/
def Row.selects (r : Row) (w : TW) : Bool := w &&& r.mask == r.mtch

/-- The row of an instruction, as R66 prints it. -/
def rowOf : Instr → Row
  | .nop => ⟨0x50000000000#43, 0x7FF000000FF#43, 2⟩
  | .encFlash _ => ⟨0x50000000001#43, 0x7FF000000FF#43, 2⟩
  | .encReset => ⟨0x50000000002#43, 0x7FF000000FF#43, 2⟩
  | .encLoad => ⟨0x50000000003#43, 0x7FF000000FF#43, 2⟩
  | .crcInit => ⟨0x50000000010#43, 0x7FF000000FF#43, 2⟩
  | .illegalCmd _ => ⟨0x50000000000#43, 0x7FF00000000#43, 3⟩
  | .crcByte _ => ⟨0x50400000000#43, 0x7FF00000000#43, 2⟩
  | .clrErr _ => ⟨0x51000000000#43, 0x7FF00000000#43, 2⟩
  | .rdCmd => ⟨0x40000000000#43, 0x7FF00000000#43, 2⟩
  | .rdData => ⟨0x40400000000#43, 0x7FF00000000#43, 2⟩
  | .rdCrc => ⟨0x40800000000#43, 0x7FF00000000#43, 2⟩
  | .rdLen => ⟨0x40C00000000#43, 0x7FF00000000#43, 2⟩
  | .rdStatus => ⟨0x41000000000#43, 0x7FF00000000#43, 2⟩
  | .rdFrameLo => ⟨0x41400000000#43, 0x7FF00000000#43, 2⟩
  | .rdFrameHi => ⟨0x41800000000#43, 0x7FF00000000#43, 2⟩
  | .wrCrcIgn => ⟨0x50800000000#43, 0x7FF00000000#43, 2⟩
  | .wrLenIgn => ⟨0x50C00000000#43, 0x7FF00000000#43, 2⟩
  | .wrFrameLoIgn => ⟨0x51400000000#43, 0x7FF00000000#43, 2⟩
  | .wrFrameHiIgn => ⟨0x51800000000#43, 0x7FF00000000#43, 2⟩
  | .rdRsv _ => ⟨0x40000000000#43, 0x70300000000#43, 4⟩
  | .wrRsv _ => ⟨0x50000000000#43, 0x70300000000#43, 4⟩
  | .buserrSize8 _ _ => ⟨0x00000000000#43, 0x60000000000#43, 1⟩
  | .buserrSize16 _ _ => ⟨0x20000000000#43, 0x60000000000#43, 1⟩
  | .buserrSizeRsv _ _ => ⟨0x60000000000#43, 0x60000000000#43, 1⟩
  | .buserrAlign1 _ _ => ⟨0x40100000000#43, 0x60300000000#43, 1⟩
  | .buserrAlign2 _ _ => ⟨0x40200000000#43, 0x60300000000#43, 1⟩
  | .buserrAlign3 _ _ => ⟨0x40300000000#43, 0x60300000000#43, 1⟩

/-- One instruction of each constructor; an instruction's row does not depend on its operands. -/
def oneOfEach : List Instr :=
  [.nop, .encFlash 0#16, .encReset, .encLoad, .crcInit, .illegalCmd 0xFF#8, .crcByte 0#8, .clrErr 0#32,
    .rdCmd, .rdData, .rdCrc, .rdLen, .rdStatus, .rdFrameLo, .rdFrameHi] ++
  [.wrCrcIgn, .wrLenIgn, .wrFrameLoIgn, .wrFrameHiIgn, .rdRsv 0x1C#8, .wrRsv 0x1C#8,
    .buserrSize8 false 0#8, .buserrSize16 false 0#8, .buserrSizeRsv false 0#8,
    .buserrAlign1 false 1#8, .buserrAlign2 false 2#8, .buserrAlign3 false 3#8]

/-- The 27 rows of the table (R66). -/
def opTable : List Row := oneOfEach.map rowOf

end Sys2Proof
end

