-- ==== Sys2Proof/Config.lean ====
section
/-! DEFINITION. What the platform fixes and the spec leaves OPEN (00_scope.md R6, 10_state.md R39, 92_eei_decisions.md).
Each open parameter is an opaque constant: no proof can see its value, so every claim holds for all its values. -/

namespace Sys2Proof

/-- CRC_IMPL: how the block computes one byte of the CRC (R86). -/
inductive CrcImpl where
  | serial
  | table
  | parallel
deriving DecidableEq, Repr, Inhabited

/-- HOST_OFFSET_POLICY: what the host does with a page offset of 65536 or more (R179). -/
inductive OffsetPolicy where
  | wrap
  | fail
deriving DecidableEq, Repr, Inhabited

namespace Config

/-- The CRC implementation of this block (R6 OPEN, R39, 92 D12). -/
opaque crcImpl : CrcImpl

/-- The platform's base address of the register window (R51, R39). -/
opaque windowBase : Nat

/-- The host's offset policy (R6 OPEN, R179, 92 D32); host side only. -/
opaque hostOffsetPolicy : OffsetPolicy

/-- The optional overall bound on the readiness wait, in channel reads; none is the source design (R177). -/
opaque readyBound : Option Nat

end Config

end Sys2Proof
end

