-- ==== Sys2Proof/Machine/State.lean ====
section
/-! DEFINITION. The state of CRC16-FE: the seven elements of 10_state.md R22, what the block's output ports show
(20_memory.md R58), and the queue of what the host will drive on its input ports (the model's own field, log 1). -/

namespace Sys2Proof.Machine

/-- The wires of one host access (R58): `we`, `size`, `addr`, `wdata`, held steady until `ready` (R59). -/
structure Request where
  size : BitVec 2
  we : Bool
  addr : Offset
  wdata : Word
deriving DecidableEq, Repr

/-- What the host does next at the input ports (R58, R59, R190 to R192). -/
inductive BusInput where
  /-- A rising edge of clk with rst = 0 and req = 0. -/
  | idle
  /-- A request held steady until the edge with ready = 1: one completed handshake (R59). -/
  | request (r : Request)
  /-- A request withdrawn or changed before ready = 1 (R59: "the model gives a withdrawn request no meaning"). -/
  | withdrawn (r : Request)
  /-- A rising edge of clk with rst = 1, and the request that was pending, if any (R190, R191). -/
  | reset (pending : Option Request)
deriving DecidableEq, Repr

/-- What the output ports ready, err and rdata say after an input (R58, R59). Only values the spec calls valid are
represented (log 2): err goes with ready, and rdata with a completed read or a bus error. -/
inductive Reply where
  /-- ready = 0: no access completed. -/
  | notReady
  /-- ready = 1, err = 0, for a write. -/
  | wrote
  /-- ready = 1, err = 0, rdata = v, for a read. -/
  | read (v : Word)
  /-- ready = 1, err = 1, rdata = 0 (R59, R162). -/
  | busError
deriving DecidableEq, Repr

/-- Nothing in the spec stops the block: a bus error is the answer to one access, after which the block goes on
(R162, R166), and the other events set a STATUS bit (R161, R163). So no meaning and no step raises a fault (log 5). -/
inductive Fault where
deriving DecidableEq, Repr

/-- Why the model gives an input no meaning. -/
inductive Refusal where
  /-- An instruction whose arm has no meaning yet. Raised by no arm of this model. Safe. -/
  | notModelled (mnemonic : String)
  /-- Raised by `step` on the input `withdrawn`: R59 gives a withdrawn or changed request no meaning. Safe (log 4). -/
  | requestWithdrawn
deriving DecidableEq, Repr

/-- The machine's state. -/
structure State where
  /-- CRC_ACC (R23). -/
  crcAcc : Half
  /-- LEN_CNT (R24). -/
  lenCnt : Half
  /-- LEN_OVF (R25). -/
  lenOvf : Bool
  /-- FRAME[0..7] (R26). -/
  frame : Vector Byte 8
  /-- FRAME_VALID (R27). -/
  frameValid : Bool
  /-- ERR_ILLEGAL (R28). -/
  errIllegal : Bool
  /-- ERR_LEN (R29). -/
  errLen : Bool
  /-- The output ports after the last input (R58). -/
  reply : Reply
  /-- What the host will drive, first input first; the model's own field (log 1). -/
  inputs : List BusInput
deriving DecidableEq, Repr

/-- The block right after block reset (R22, R190): ready is 0 (R192), and the host has asked for nothing yet (log 1). -/
def State.reset : State where
  crcAcc := 0xFFFF#16
  lenCnt := 0x0000#16
  lenOvf := false
  frame := #v[0x00#8, 0x00#8, 0x00#8, 0x00#8, 0x00#8, 0x00#8, 0x00#8, 0x00#8]
  frameValid := false
  errIllegal := false
  errLen := false
  reply := .notReady
  inputs := []

end Sys2Proof.Machine
end

