-- ==== Sys2Proof/Machine/Flags.lean ====
section
/-! DEFINITION. The STATUS register: how its flags are read, and every rule by which one changes (10_state.md R25 to R29,
R35; 42_control.md R141, R142). -/

namespace Sys2Proof.Machine

/-- STATUS as read: 28 zero bits, ERR_LEN, ERR_ILLEGAL, LEN_OVF, FRAME_VALID (R35, R141). -/
def State.statusWord (s : State) : Word :=
  0#28 ++ BitVec.ofBool s.errLen ++ BitVec.ofBool s.errIllegal ++ BitVec.ofBool s.lenOvf ++ BitVec.ofBool s.frameValid

/-- LEN_OVF after one more byte: set by the byte that finds the counter at 0xFFFF, and sticky (R25, R88). -/
def lenOvfAfterByte (count : Half) (ovf : Bool) : Bool := ovf || count == 0xFFFF#16

/-- The write-1-to-clear effect of a STATUS write: bit 2 clears ERR_ILLEGAL, bit 3 clears ERR_LEN, every other bit is
ignored (R35, R142). -/
def State.clearErrors (s : State) (m : Word) : State :=
  { s with errIllegal := s.errIllegal && !m.getLsbD 2, errLen := s.errLen && !m.getLsbD 3 }

end Sys2Proof.Machine
end

