-- ==== Sys2Proof/Machine/Operands.lean ====
section
/-! DEFINITION. The operands that are not in an encoding (30_encoding.md R64) and the registers of the window, each at its
offset, with the value a read of it returns (10_state.md R30 to R37). The explicit operand fields (R61 to R63) are taken
out once, in Decode.lean. -/

namespace Sys2Proof.Machine

/-- The registers of the window (R30); `rsv` is any of the 57 reserved slots. -/
inductive Reg where
  | cmd
  | data
  | crc
  | len
  | status
  | frameLo
  | frameHi
  | rsv
deriving DecidableEq, Repr

/-- The register at a word-aligned offset (R30). -/
def regAt (off : Offset) : Reg :=
  if off = 0x00#8 then .cmd
  else if off = 0x04#8 then .data
  else if off = 0x08#8 then .crc
  else if off = 0x0C#8 then .len
  else if off = 0x10#8 then .status
  else if off = 0x14#8 then .frameLo
  else if off = 0x18#8 then .frameHi
  else .rsv

/-- FRAME[0..3] as a word, FRAME[k] at bits 8k+7 : 8k (R36). -/
def frameLoWord (f : Vector Byte 8) : Word := f[3] ++ f[2] ++ f[1] ++ f[0]

/-- FRAME[4..7] as a word, FRAME[k] at bits 8(k-4)+7 : 8(k-4) (R37). -/
def frameHiWord (f : Vector Byte 8) : Word := f[7] ++ f[6] ++ f[5] ++ f[4]

/-- The value a 32-bit read of a register returns (R31 to R37, R145, R146). -/
def State.readReg (s : State) : Reg → Word
  | .cmd => 0#32
  | .data => 0#32
  | .crc => s.crcAcc.setWidth 32
  | .len => s.lenCnt.setWidth 32
  | .status => s.statusWord
  | .frameLo => frameLoWord s.frame
  | .frameHi => frameHiWord s.frame
  | .rsv => 0#32

/-- The implicit length operand of ENC_FLASH (R64, R116). -/
def State.headerLength (s : State) : Half := s.lenCnt

/-- The implicit CRC operand of ENC_FLASH (R64, R116). -/
def State.headerCrc (s : State) : Half := s.crcAcc

end Sys2Proof.Machine
end

