-- ==== Sys2Proof/Machine/Ops.lean ====
section
/-! DEFINITION. The operations the meanings share: how an access completes, how an event is raised (60_exceptions.md R160
to R166), and how a frame is put into the buffer (10_state.md R26, R27). -/

namespace Sys2Proof.Machine

/-- What a step or a meaning answers. -/
abbrev Result := Host.Outcome State Fault Refusal

/-! ### The output ports (R58) -/

/-- The port ready. -/
def Reply.ready : Reply → Bool
  | .notReady => false
  | .wrote | .read _ | .busError => true

/-- The port err, where it is valid: with ready = 1. -/
def Reply.err : Reply → Option Bool
  | .notReady => none
  | .wrote | .read _ => some false
  | .busError => some true

/-- The port rdata, where the spec gives its value: after a completed read, and 0 with a bus error (R59). -/
def Reply.rdata : Reply → Option Word
  | .notReady | .wrote => none
  | .read v => some v
  | .busError => some 0#32

/-! ### Completion -/

/-- A write completes: ready = 1, err = 0. -/
def State.wrote (s : State) : State := { s with reply := .wrote }

/-- A read of a register completes with its value and changes nothing else (R49). -/
def State.answerRead (s : State) (r : Reg) : State := { s with reply := .read (s.readReg r) }

/-! ### Events -/

/-- The complete list of error events (R160). -/
inductive Event where
  | illegalOp
  | lenRefused
  | busError
deriving DecidableEq, Repr

/-- Raising an event, the one way an error shows (R160 to R163). There is no trap: no state is saved, no mode changes and
the block goes on (R166). Each event has the effect below and no other; the access completes. -/
def State.raise (s : State) : Event → State
  | .illegalOp => { s with errIllegal := true, reply := .wrote }
  | .lenRefused => { s with errLen := true, frameValid := false, reply := .wrote }
  | .busError => { s with reply := .busError }

/-! ### The frame buffer -/

/-- A frame is built: all eight bytes are overwritten, FRAME_VALID is set, the write completes (R26, R27). -/
def State.putFrame (s : State) (f : Vector Byte 8) : State := { s with frame := f, frameValid := true, reply := .wrote }

end Sys2Proof.Machine
end

