-- ==== Sys2Proof/Machine/Bus.lean ====
section
/-! DEFINITION. The bus side of the block: the transaction word of a request (30_encoding.md R60), block reset
(70_reset_and_hazards.md R190 to R192), an edge without a request, and the platform address of a register (20_memory.md
R51). -/

namespace Sys2Proof.Machine

/-- The transaction word of the tuple (size, we, addr, wdata) on the wires (R60). -/
def Request.tw (r : Request) : TW := mkTW r.size r.we r.addr r.wdata

/-- The wires of a transaction word (R60). -/
def Request.ofTW (w : TW) : Request := ⟨twSize w, twWrite w, twAddr w, twData w⟩

/-- An edge at which no access completes: ready = 0 and nothing else changes. -/
def State.idle (s : State) : State := { s with reply := .notReady }

/-- An edge with rst = 1: every element of state takes its reset value, ready is 0, and a pending access is abandoned
with no effect; what the host drives next is not the block's (R190 to R192). -/
def State.blockReset (s : State) : State := { State.reset with inputs := s.inputs }

/-- The next input is taken off the queue. -/
def State.takeInput (s : State) (rest : List BusInput) : State := { s with inputs := rest }

/-- The host drives one more access, the next one. -/
def State.drive (s : State) (w : TW) : State := { s with inputs := .request (Request.ofTW w) :: s.inputs }

/-- The system address of a register: the platform's base and the register's offset (R51). -/
def busAddress (off : Offset) : Nat := Config.windowBase + off.toNat

end Sys2Proof.Machine
end

