-- ==== Sys2Proof/Machine/BusError.lean ====
section
/-! DEFINITION. The accesses the block answers with a bus error (20_memory.md R43, R44; 60_exceptions.md R162). The
direction and the offset of such an access have no effect; which constructor it is says which check failed (R45). -/

namespace Sys2Proof.Machine

/-- BUSERR_SIZE8: an 8-bit access (R43, R162). -/
def execBuserrSize8 (_we : Bool) (_off : Offset) (s : State) : Result := .next (s.raise .busError)

/-- BUSERR_SIZE16: a 16-bit access (R43, R162). -/
def execBuserrSize16 (_we : Bool) (_off : Offset) (s : State) : Result := .next (s.raise .busError)

/-- BUSERR_SIZE_RSV: an access of the reserved size code (R43, R162). -/
def execBuserrSizeRsv (_we : Bool) (_off : Offset) (s : State) : Result := .next (s.raise .busError)

/-- BUSERR_ALIGN1: off[1:0] = 01 (R44, R162). -/
def execBuserrAlign1 (_we : Bool) (_off : Offset) (s : State) : Result := .next (s.raise .busError)

/-- BUSERR_ALIGN2: off[1:0] = 10 (R44, R162). -/
def execBuserrAlign2 (_we : Bool) (_off : Offset) (s : State) : Result := .next (s.raise .busError)

/-- BUSERR_ALIGN3: off[1:0] = 11 (R44, R162). -/
def execBuserrAlign3 (_we : Bool) (_off : Offset) (s : State) : Result := .next (s.raise .busError)

end Sys2Proof.Machine
end

