-- ==== Sys2Proof/Machine/Control.lean ====
section
/-! DEFINITION. Control, status, ignored and reserved accesses (42_control.md R140 to R146). -/

namespace Sys2Proof.Machine

/-- NOP does nothing (R140). -/
def execNop (s : State) : Result := .next s.wrote

/-- RD_STATUS reads the flags and clears nothing (R141). -/
def execRdStatus (s : State) : Result := .next (s.answerRead .status)

/-- CLR_ERR clears sticky error bits, write-1-to-clear (R142). -/
def execClrErr (m : Word) (s : State) : Result := .next (s.clearErrors m).wrote

/-- ILLEGAL_CMD, a CMD write with a reserved OP; the OP value is not captured (R143, R160, R161). -/
def execIllegalCmd (_op : Byte) (s : State) : Result := .next (s.raise .illegalOp)

/-- WR_CRC_IGN: a write to CRC is ignored (R144). -/
def execWrCrcIgn (s : State) : Result := .next s.wrote

/-- WR_LEN_IGN: a write to LEN is ignored (R144). -/
def execWrLenIgn (s : State) : Result := .next s.wrote

/-- WR_FRAME_LO_IGN: a write to FRAME_LO is ignored (R144). -/
def execWrFrameLoIgn (s : State) : Result := .next s.wrote

/-- WR_FRAME_HI_IGN: a write to FRAME_HI is ignored (R144). -/
def execWrFrameHiIgn (s : State) : Result := .next s.wrote

/-- RD_CMD returns 0 and does not repeat the last command (R145). -/
def execRdCmd (s : State) : Result := .next (s.answerRead .cmd)

/-- RD_DATA returns 0 (R145). -/
def execRdData (s : State) : Result := .next (s.answerRead .data)

/-- RD_RSV: a reserved slot reads as zero (R146). -/
def execRdRsv (_off : Offset) (s : State) : Result := .next (s.answerRead .rsv)

/-- WR_RSV: a write to a reserved slot is ignored (R146). -/
def execWrRsv (_off : Offset) (s : State) : Result := .next s.wrote

end Sys2Proof.Machine
end

