-- ==== Sys2Proof/Machine/Crc.lean ====
section
/-! DEFINITION. The CRC-16 generator (40_crc.md): the function of R80 to R82 and the meanings of CRC_INIT, CRC_BYTE,
RD_CRC and RD_LEN (R87 to R90). -/

namespace Sys2Proof.Machine

/-- The CRC polynomial, in its MSB-first form with the x^16 term implicit (R6). -/
def crcPoly : Half := 0x1021#16

/-- The CRC start value (R6, R82). -/
def crcStart : Half := 0xFFFF#16

/-- One round: shift left, and XOR the polynomial if bit 15 was set (R80). -/
def crcRound (a : Half) : Half := if a.getLsbD 15 then (a <<< 1) ^^^ crcPoly else a <<< 1

/-- `n` rounds, one after another. -/
def crcRounds : Nat → Half → Half
  | 0, a => a
  | n + 1, a => crcRounds n (crcRound a)

/-- One byte: XOR it into the high byte, then eight rounds (R81). -/
def crcByte (a : Half) (d : Byte) : Half := crcRounds 8 (a ^^^ (d ++ 0x00#8))

/-- Feed a byte sequence to an accumulator (R82). -/
def crcFeed (a : Half) (s : List Byte) : Half := s.foldl crcByte a

/-- The CRC-16 of a byte sequence (R82). -/
def crc16 (s : List Byte) : Half := crcFeed crcStart s

/-- CRC_INIT starts a new CRC computation (R87). -/
def execCrcInit (s : State) : Result :=
  .next { s with crcAcc := crcStart, lenCnt := 0x0000#16, lenOvf := false, reply := .wrote }

/-- CRC_BYTE feeds one byte (R88). -/
def execCrcByte (byte : Byte) (s : State) : Result :=
  .next { s with
    crcAcc := crcByte s.crcAcc byte
    lenOvf := lenOvfAfterByte s.lenCnt s.lenOvf
    lenCnt := s.lenCnt + 1
    reply := .wrote }

/-- RD_CRC reads the accumulator (R89). -/
def execRdCrc (s : State) : Result := .next (s.answerRead .crc)

/-- RD_LEN reads the byte counter (R90). -/
def execRdLen (s : State) : Result := .next (s.answerRead .len)

end Sys2Proof.Machine
end

