-- ==== Sys2Proof/Machine/Frame.lean ====
section
/-! DEFINITION. The frame encoder (41_frame.md): the three layouts of R112 to R114 and the meanings of ENC_FLASH,
ENC_RESET, ENC_LOAD, RD_FRAME_LO and RD_FRAME_HI (R116 to R120). -/

namespace Sys2Proof.Machine

/-- The command codes of FRAME[0] (R111). -/
def cmdFlash : Byte := 0x01#8

/-- See `cmdFlash` (R111). -/
def cmdReset : Byte := 0x02#8

/-- See `cmdFlash` (R111). -/
def cmdLoad : Byte := 0x03#8

/-- The low byte of a 16-bit field, which goes first on the wire (R47). -/
def lowByte (v : Half) : Byte := v.extractLsb' 0 8

/-- The high byte of a 16-bit field, which goes second (R47). -/
def highByte (v : Half) : Byte := v.extractLsb' 8 8

/-- The Flash header for a length, an offset and a CRC (R112). -/
def flashFrame (length offset crc : Half) : Vector Byte 8 :=
  #v[cmdFlash, 0x00#8, lowByte length, highByte length, lowByte offset, highByte offset, lowByte crc, highByte crc]

/-- The Reset frame (R113). -/
def resetFrame : Vector Byte 8 := #v[cmdReset, 0x00#8, 0x00#8, 0x00#8, 0x00#8, 0x00#8, 0x00#8, 0x00#8]

/-- The Load frame (R114). -/
def loadFrame : Vector Byte 8 := #v[cmdLoad, 0x00#8, 0x00#8, 0x00#8, 0x00#8, 0x00#8, 0x00#8, 0x00#8]

/-- ENC_FLASH builds the Flash header for the payload fed so far, or is refused while LEN_OVF = 1 (R116, R163). -/
def execEncFlash (offset : Half) (s : State) : Result :=
  if s.lenOvf then .next (s.raise .lenRefused)
  else .next (s.putFrame (flashFrame s.headerLength offset s.headerCrc))

/-- ENC_RESET builds the Reset frame (R117). It does not reset the block. -/
def execEncReset (s : State) : Result := .next (s.putFrame resetFrame)

/-- ENC_LOAD builds the Load frame (R118). -/
def execEncLoad (s : State) : Result := .next (s.putFrame loadFrame)

/-- RD_FRAME_LO reads frame bytes 0 to 3, whatever FRAME_VALID is (R119). -/
def execRdFrameLo (s : State) : Result := .next (s.answerRead .frameLo)

/-- RD_FRAME_HI reads frame bytes 4 to 7, whatever FRAME_VALID is (R120). -/
def execRdFrameHi (s : State) : Result := .next (s.answerRead .frameHi)

end Sys2Proof.Machine
end

