-- ==== Sys2Proof/Machine/Dispatch.lean ====
section
/-! DEFINITION. One arm per operation of the opcode table: the meaning of each access. -/

namespace Sys2Proof.Machine

def exec (i : Instr) (s : State) : Host.Outcome State Fault Refusal :=
  match i with
  -- commands (CMD write)
  | .nop => Sys2Proof.Machine.execNop s
  | .encFlash offset => Sys2Proof.Machine.execEncFlash offset s
  | .encReset => Sys2Proof.Machine.execEncReset s
  | .encLoad => Sys2Proof.Machine.execEncLoad s
  | .crcInit => Sys2Proof.Machine.execCrcInit s
  | .illegalCmd op => Sys2Proof.Machine.execIllegalCmd op s
  -- DATA and STATUS writes
  | .crcByte byte => Sys2Proof.Machine.execCrcByte byte s
  | .clrErr m => Sys2Proof.Machine.execClrErr m s
  -- reads
  | .rdCmd => Sys2Proof.Machine.execRdCmd s
  | .rdData => Sys2Proof.Machine.execRdData s
  | .rdCrc => Sys2Proof.Machine.execRdCrc s
  | .rdLen => Sys2Proof.Machine.execRdLen s
  | .rdStatus => Sys2Proof.Machine.execRdStatus s
  | .rdFrameLo => Sys2Proof.Machine.execRdFrameLo s
  | .rdFrameHi => Sys2Proof.Machine.execRdFrameHi s
  -- ignored writes and reserved slots
  | .wrCrcIgn => Sys2Proof.Machine.execWrCrcIgn s
  | .wrLenIgn => Sys2Proof.Machine.execWrLenIgn s
  | .wrFrameLoIgn => Sys2Proof.Machine.execWrFrameLoIgn s
  | .wrFrameHiIgn => Sys2Proof.Machine.execWrFrameHiIgn s
  | .rdRsv off => Sys2Proof.Machine.execRdRsv off s
  | .wrRsv off => Sys2Proof.Machine.execWrRsv off s
  -- bus errors
  | .buserrSize8 we off => Sys2Proof.Machine.execBuserrSize8 we off s
  | .buserrSize16 we off => Sys2Proof.Machine.execBuserrSize16 we off s
  | .buserrSizeRsv we off => Sys2Proof.Machine.execBuserrSizeRsv we off s
  | .buserrAlign1 we off => Sys2Proof.Machine.execBuserrAlign1 we off s
  | .buserrAlign2 we off => Sys2Proof.Machine.execBuserrAlign2 we off s
  | .buserrAlign3 we off => Sys2Proof.Machine.execBuserrAlign3 we off s

end Sys2Proof.Machine
end

