-- ==== Sys2Proof/Machine/Step.lean ====
section
/-! DEFINITION. One step of the machine: the next thing the host drives on the input ports. A completed access is one
step (20_memory.md R50, R59; 92_eei_decisions.md D3). -/

namespace Sys2Proof.Machine

/-- One step. A request is decoded from its transaction word and run (R50, R67); an edge with rst = 1 resets (R190); an edge
without a request changes nothing; a withdrawn request has no meaning (R59). An empty queue is an edge without a request
(log 1). -/
def step (s : State) : Host.Outcome State Fault Refusal :=
  match s.inputs with
  | [] => .next s.idle
  | .idle :: rest => .next (s.takeInput rest).idle
  | .request r :: rest => exec (decode r.tw) (s.takeInput rest)
  | .withdrawn _ :: _ => .refused .requestWithdrawn
  | .reset _ :: rest => .next (s.takeInput rest).blockReset

/-- `s` with the access of a transaction word driven next, before what the host had queued (log 1). -/
def State.withFetchWord (s : State) (_nbits w : Nat) : State :=
  s.drive (BitVec.ofNat 43 w)

end Sys2Proof.Machine
end

