-- ==== Sys2Proof/Machine/Assembler.lean ====
section
/-! DEFINITION. The assembler of 30_encoding.md R70 and R71: each line and the transaction words it stands for. Operands
are plain numbers here, since an operand out of range is refused and never truncated (R70). -/

namespace Sys2Proof.Machine

/-- One line of an assembler program (R70), or a pseudo-instruction (R71). -/
inductive AsmLine where
  | nop
  | crcInit
  | crcByte (b : Nat)
  | encFlash (o : Nat)
  | encReset
  | encLoad
  | clrErr (m : Nat)
  | rdCmd
  | rdData
  | rdCrc
  | rdLen
  | rdStatus
  | rdFrameLo
  | rdFrameHi
  | wr (off v : Nat)
  | rd (off : Nat)
  | wrB (off v : Nat)
  | wrH (off v : Nat)
  | rdB (off : Nat)
  | rdH (off : Nat)
  /-- CRC_BYTES b0, ..., bn. -/
  | crcBytes (bs : List Nat)
  /-- CRC_STR "text", given by its characters' codes. -/
  | crcStr (codes : List Nat)
  /-- REPEAT n, insn; that insn may be any line is the model's choice (log 12). -/
  | rept (n : Nat) (line : AsmLine)
  /-- PAGE o, b0, ..., bn. -/
  | page (o : Nat) (bs : List Nat)
  | clrErrAll
  | frameRead
deriving DecidableEq, Repr

/-- Why the assembler refuses a program. -/
inductive AsmError where
  /-- An operand does not fit its field (R70: "An assembler refuses an operand out of range"). -/
  | outOfRange
  /-- A line of the text is no form of R70 or R71. -/
  | badLine
deriving DecidableEq, Repr

/-- `n` as a field of `w` bits, or a refusal. -/
def fieldOf (w n : Nat) : Except AsmError (BitVec w) :=
  if n < 2 ^ w then .ok (BitVec.ofNat w n) else .error .outOfRange

/-- `f` of a field's value. -/
def withField (w n : Nat) (f : BitVec w → TW) : Except AsmError (List TW) :=
  (fieldOf w n).map fun v => [f v]

/-- An access with a size, a direction and two numbers. R70 gives no range for the value of a sub-word write, `WR.B off, v`
or `WR.H off, v`; here v is any 32-bit number and goes into DATA whole (DESIGN CHOICE, log 12). -/
def rawAccess (size : BitVec 2) (we : Bool) (off v : Nat) : Except AsmError (List TW) :=
  match fieldOf 8 off, fieldOf 32 v with
  | .ok o, .ok d => .ok [mkTW size we o d]
  | .error e, _ => .error e
  | _, .error e => .error e

/-- One CRC_BYTE for each number, all below `bound`. -/
def crcByteWords (bound : Nat) : List Nat → Except AsmError (List TW)
  | [] => .ok []
  | b :: bs =>
    if b < bound then (crcByteWords bound bs).map fun ws => encode (.crcByte (BitVec.ofNat 8 b)) :: ws
    else .error .outOfRange

/-- The transaction words of a line (R70, R71). -/
def assemble : AsmLine → Except AsmError (List TW)
  | .nop => .ok [encode .nop]
  | .crcInit => .ok [encode .crcInit]
  | .crcByte b => withField 8 b fun v => encode (.crcByte v)
  | .encFlash o => withField 16 o fun v => encode (.encFlash v)
  | .encReset => .ok [encode .encReset]
  | .encLoad => .ok [encode .encLoad]
  | .clrErr m => withField 32 m fun v => encode (.clrErr v)
  | .rdCmd => .ok [encode .rdCmd]
  | .rdData => .ok [encode .rdData]
  | .rdCrc => .ok [encode .rdCrc]
  | .rdLen => .ok [encode .rdLen]
  | .rdStatus => .ok [encode .rdStatus]
  | .rdFrameLo => .ok [encode .rdFrameLo]
  | .rdFrameHi => .ok [encode .rdFrameHi]
  | .wr off v => rawAccess 0b10#2 true off v
  | .rd off => rawAccess 0b10#2 false off 0
  | .wrB off v => rawAccess 0b00#2 true off v
  | .wrH off v => rawAccess 0b01#2 true off v
  | .rdB off => rawAccess 0b00#2 false off 0
  | .rdH off => rawAccess 0b01#2 false off 0
  | .crcBytes bs => crcByteWords 256 bs
  | .crcStr codes => crcByteWords 128 codes
  | .rept n line => (assemble line).map fun ws => (List.replicate n ws).flatten
  | .page o bs =>
    match crcByteWords 256 bs, fieldOf 16 o with
    | .ok ws, .ok v => .ok (encode .crcInit :: ws ++ [encode (.encFlash v)])
    | .error e, _ => .error e
    | _, .error e => .error e
  | .clrErrAll => .ok [encode (.clrErr 0x0000000C#32)]
  | .frameRead => .ok [encode .rdFrameLo, encode .rdFrameHi]

/-- The transaction words of a program, its lines in order (R70). -/
def assembleAll : List AsmLine → Except AsmError (List TW)
  | [] => .ok []
  | l :: ls =>
    match assemble l, assembleAll ls with
    | .ok ws, .ok rest => .ok (ws ++ rest)
    | .error e, _ => .error e
    | _, .error e => .error e

end Sys2Proof.Machine
end

