-- ==== Sys2Proof/Machine/CrcForms.lean ====
section
/-! DEFINITION. The other ways to compute one byte of the CRC that the spec describes (40_crc.md R83 to R86). The machine
runs R81 (Machine/Crc.lean); that each of these equals it is stated, not assumed. -/

namespace Sys2Proof.Machine

/-! ### Masking once, after the eighth round (R83) -/

/-- One round on an accumulator that is never masked, testing bit 15. -/
def crcRoundUnmasked (a : Nat) : Nat := if a.testBit 15 then (2 * a) ^^^ crcPoly.toNat else 2 * a

/-- `n` unmasked rounds. -/
def crcRoundsUnmasked : Nat → Nat → Nat
  | 0, a => a
  | n + 1, a => crcRoundsUnmasked n (crcRoundUnmasked a)

/-- One byte, masked to 16 bits once at the end (R83). -/
def crcByteMaskedLate (a : Half) (d : Byte) : Half :=
  BitVec.ofNat 16 (crcRoundsUnmasked 8 (a.toNat ^^^ (d.toNat * 256)))

/-! ### SERIAL: a shift register, one round per clock (R86) -/

/-- The shift register and the count of rounds done, after one more clock. -/
def serialClock (x : Half × Nat) : Half × Nat := (crcRound x.1, x.2 + 1)

/-- One byte in eight clocks (R86, R199). -/
def crcByteSerial (a : Half) (d : Byte) : Half := (Nat.repeat serialClock 8 (a ^^^ (d ++ 0x00#8), 0)).1

/-! ### TABLE (R84) -/

/-- The constant table T, computed from its definition (R84). -/
def crcTable : Vector Half 256 := Vector.ofFn fun i => crcRounds 8 (BitVec.ofNat 8 i.val ++ 0x00#8)

/-- The entry T[i]. -/
def crcEntry (i : Byte) : Half := crcTable[i.toNat]

/-- One byte by one look-up (R84). -/
def crcByteTable (a : Half) (d : Byte) : Half := (a <<< 8) ^^^ crcEntry (a.extractLsb' 8 8 ^^^ d)

/-! ### PARALLEL: an XOR network (R85) -/

/-- The XOR of the listed bits of the accumulator c and of the byte d. -/
def xorTaps (c : Half) (d : Byte) (cs ds : List Nat) : Bool :=
  ((cs.map c.getLsbD) ++ (ds.map d.getLsbD)).foldr Bool.xor false

/-- One byte by the sixteen equations n15 down to n0 of R85. -/
def crcByteParallel (c : Half) (d : Byte) : Half :=
  BitVec.ofBool (xorTaps c d [7, 11, 15] [3, 7]) ++
  BitVec.ofBool (xorTaps c d [6, 10, 14] [2, 6]) ++
  BitVec.ofBool (xorTaps c d [5, 9, 13] [1, 5]) ++
  BitVec.ofBool (xorTaps c d [4, 8, 12, 15] [0, 4, 7]) ++
  BitVec.ofBool (xorTaps c d [3, 14] [6]) ++
  BitVec.ofBool (xorTaps c d [2, 13] [5]) ++
  BitVec.ofBool (xorTaps c d [1, 12] [4]) ++
  BitVec.ofBool (xorTaps c d [0, 11, 15] [3, 7]) ++
  BitVec.ofBool (xorTaps c d [10, 14, 15] [2, 6, 7]) ++
  BitVec.ofBool (xorTaps c d [9, 13, 14] [1, 5, 6]) ++
  BitVec.ofBool (xorTaps c d [8, 12, 13] [0, 4, 5]) ++
  BitVec.ofBool (xorTaps c d [12] [4]) ++
  BitVec.ofBool (xorTaps c d [11, 15] [3, 7]) ++
  BitVec.ofBool (xorTaps c d [10, 14] [2, 6]) ++
  BitVec.ofBool (xorTaps c d [9, 13] [1, 5]) ++
  BitVec.ofBool (xorTaps c d [8, 12] [0, 4])

/-- One byte by the implementation chosen (R86). -/
def crcByteBy : CrcImpl → Half → Byte → Half
  | .serial => crcByteSerial
  | .table => crcByteTable
  | .parallel => crcByteParallel

end Sys2Proof.Machine
end

