-- ==== Sys2Proof/Machine/Session.lean ====
section
/-! DEFINITION. The host that drives the block, as 60_exceptions.md part 2 describes it (R171 to R181): the upload
session over the serial channel, with the block's accesses in place of a software CRC and encoder. It is context: R4 puts
it outside the block, no step of the machine reads it, and it adds nothing to State (log 11). -/

namespace Sys2Proof.Machine

/-! ### The channel and the session -/

/-- What one 1-byte read of the channel gives. -/
inductive RxEvent where
  | byte (b : Byte)
  /-- Zero bytes before the transport's timeout (R173). -/
  | nothing
  /-- The transport failed (R180). -/
  | ioError
deriving DecidableEq, Repr

/-- What one write to the channel does. -/
inductive TxEvent where
  /-- All of its bytes leave. -/
  | sent
  /-- The transport failed after the first `left` bytes (R180). -/
  | ioError (left : Nat)
deriving DecidableEq, Repr

/-- The phases of a session (R178). -/
inductive Phase where
  | awaitingDevice
  | transferring
  | finalizing
  | done
deriving DecidableEq, Repr

/-- The host, the block it drives and the channel it owns (R171). -/
structure Session where
  block : State
  phase : Phase
  /-- What the channel's reads will give, in order; the device is an input (93 section 2). -/
  rx : List RxEvent
  /-- What the channel's writes will do, in order; an ended script is writes that succeed (log 11). -/
  writes : List TxEvent
  /-- What of each write so far has left, the first write first. -/
  tx : List (List Byte)
deriving DecidableEq, Repr

/-- Where a failure happened (R180). -/
inductive Stage where
  | hello
  | header
  | data
  | reset
  | load
deriving DecidableEq, Repr

/-- How a session fails (R177, R179, R180). -/
inductive HostFail where
  /-- A response other than Ack; `got = none` on a timeout (R180). -/
  | unexpectedResponse (stage : Stage) (got : Option Byte)
  /-- The transport failed: fatal (R180). -/
  | io
  /-- A bus error, or a STATUS error bit, or FRAME_VALID = 0 after ENC_FLASH (R175, R180). -/
  | block
  /-- HOST_OFFSET_POLICY = FAIL refuses an image of more than 65536 bytes (R179). -/
  | sizeExceeded
  /-- The optional bound on the readiness wait ran out (R177). -/
  | deviceNotReady
  /-- Not a failure of the host: the channel script ended while the host still waits for the banner (R177). -/
  | stillWaiting
deriving DecidableEq, Repr

end Sys2Proof.Machine

/-- The exit status of a run that failed, less one: R180 says only that it is not zero, so it is a free value for each
failure (log 10). -/
opaque Sys2Proof.Config.failExit : Sys2Proof.Machine.HostFail → Nat

namespace Sys2Proof.Machine

/-- A host action: it keeps the session, and so the bytes already written, when it fails. -/
abbrev HostM := EStateM HostFail Session

/-! ### Bytes of the protocol -/

/-- The Hello frame (R172). -/
def helloFrame : List Byte := [0xAA#8, 0x03#8, 0x55#8, 0x39#8]

/-- The banner "Ready" (R177). -/
def readyBanner : List Byte := [0x52#8, 0x65#8, 0x61#8, 0x64#8, 0x79#8]

/-- A response (R173). -/
inductive Response where
  | ack
  | nack
  | other (b : Byte)
  | timeout
deriving DecidableEq, Repr

/-- The response a 1-byte read stands for (R173). -/
def classify : Option Byte → Response
  | none => .timeout
  | some b => if b = 0x01#8 then .ack else if b = 0xA5#8 then .nack else .other b

/-! ### Channel actions -/

/-- Write bytes to the channel. A failing transport is fatal; how many bytes left before it failed is the channel's
(R180; log 11). -/
def channelWrite (bs : List Byte) : HostM Unit := fun h =>
  match h.writes with
  | [] => .ok () { h with tx := h.tx ++ [bs] }
  | .sent :: rest => .ok () { h with tx := h.tx ++ [bs], writes := rest }
  | .ioError left :: rest => .error .io { h with tx := h.tx ++ [bs.take left], writes := rest }

/-- Read exactly one byte; a script that has ended is silence. -/
def channelRead : HostM (Option Byte) := fun h =>
  match h.rx with
  | [] => .ok none h
  | .byte b :: rest => .ok (some b) { h with rx := rest }
  | .nothing :: rest => .ok none { h with rx := rest }
  | .ioError :: rest => .error .io { h with rx := rest }

/-- Read one byte and go on only if it is Ack; everything else is treated as Nack (R173, R175, R176, R180). -/
def requireAck (stage : Stage) : HostM Unit := do
  let got ← channelRead
  if classify got = .ack then pure () else throw (.unexpectedResponse stage got)

/-- The handshake (R172). -/
def handshake : HostM Unit := do
  channelWrite helloFrame
  requireAck .hello

/-! ### Block accesses -/

/-- Issue one access and take the reply; a bus error fails the session (R180). -/
def blockAccess (i : Instr) : HostM Reply := fun h =>
  match step (h.block.drive (encode i)) with
  | .next s => if s.reply.err = some true then .error .block { h with block := s } else .ok s.reply { h with block := s }
  | .fault _ => .error .block h
  | .refused _ => .error .block h

/-- Issue a read and take its word. -/
def blockRead (i : Instr) : HostM Word := do
  match (← blockAccess i).rdata with
  | some v => pure v
  | none => throw .block

/-- STATUS shows a valid frame and no error bit (R175, R180, R197). -/
def statusGood (st : Word) : Bool := st.getLsbD 0 && !st.getLsbD 2 && !st.getLsbD 3

/-- The bytes of a register word, the byte of least weight first (R47). -/
def wordBytes (w : Word) : List Byte := [w.extractLsb' 0 8, w.extractLsb' 8 8, w.extractLsb' 16 8, w.extractLsb' 24 8]

/-- FRAME[0] through FRAME[7], by RD_FRAME_LO and RD_FRAME_HI (R47, R181). -/
def readFrame : HostM (List Byte) := do
  let lo ← blockRead .rdFrameLo
  let hi ← blockRead .rdFrameHi
  pure (wordBytes lo ++ wordBytes hi)

/-- Feed a payload, one CRC_BYTE per byte, in wire order (R181). -/
def feedPayload : List Byte → HostM Unit
  | [] => pure ()
  | b :: bs => do
    let _ ← blockAccess (.crcByte b)
    feedPayload bs

/-! ### Commands -/

/-- `flash_page` (R175). -/
def flashPage (payload : List Byte) (offset : Half) : HostM Unit := do
  handshake
  let _ ← blockAccess .crcInit
  feedPayload payload
  let _ ← blockAccess (.encFlash offset)
  let st ← blockRead .rdStatus
  if statusGood st then pure () else throw .block
  let frame ← readFrame
  channelWrite frame
  requireAck .header
  channelWrite payload
  requireAck .data

/-- A Reset or Load command (R176). -/
def sendCommand (i : Instr) (stage : Stage) : HostM Unit := do
  handshake
  let _ ← blockAccess i
  let frame ← readFrame
  channelWrite frame
  requireAck stage

/-- `reset()` (R176). -/
def sendReset : HostM Unit := sendCommand .encReset .reset

/-- `load()` (R176). -/
def sendLoad : HostM Unit := sendCommand .encLoad .load

/-! ### The readiness wait (R177) -/

/-- How a scan for the banner ends. -/
inductive BannerScan where
  | found (rest : List RxEvent)
  | waiting
  | gaveUp (rest : List RxEvent)
  | ioError (rest : List RxEvent)
deriving DecidableEq, Repr

/-- Whether the bytes read so far end with the banner. -/
def endsReady (buf : List Byte) : Bool := readyBanner.isSuffixOf buf

/-- Read byte after byte, retrying on empty reads, until the buffer ends with the banner; `bound` is the number of reads
a hardened host allows (the model's unit for the bound, log 11). A script that has ended is silence: a bounded wait runs
out on it, and an unbounded one goes on for ever. -/
def scanBanner : List RxEvent → List Byte → Option Nat → BannerScan
  | rx, _, some 0 => .gaveUp rx
  | [], _, some _ => .gaveUp []
  | [], _, none => .waiting
  | .ioError :: rest, _, _ => .ioError rest
  | .nothing :: rest, buf, bound => scanBanner rest buf (bound.map Nat.pred)
  | .byte b :: rest, buf, bound =>
    if endsReady (buf ++ [b]) then .found rest else scanBanner rest (buf ++ [b]) (bound.map Nat.pred)

/-- The script after the first `arrived` events, the pending input, are discarded; a transport failure among them ends
the discard with what follows it (R180). -/
def discardPending : Nat → List RxEvent → Except (List RxEvent) (List RxEvent)
  | 0, rx => .ok rx
  | _ + 1, [] => .ok []
  | _ + 1, .ioError :: rest => .error rest
  | n + 1, .byte _ :: rest | n + 1, .nothing :: rest => discardPending n rest

/-- Discard pending input; how much had arrived is the channel's (R177; log 11). A transport failure is fatal (R180). -/
def discardInput (arrived : Nat) : HostM Unit := fun h =>
  match discardPending arrived h.rx with
  | .ok rest => .ok () { h with rx := rest }
  | .error rest => .error .io { h with rx := rest }

/-- Read until the banner, or fail as the scan ends (R177, R180). -/
def awaitBanner (bound : Option Nat) : HostM Unit := fun h =>
  match scanBanner h.rx [] bound with
  | .found rest => .ok () { h with rx := rest }
  | .waiting => .error .stillWaiting { h with rx := [] }
  | .gaveUp rest => .error .deviceNotReady { h with rx := rest }
  | .ioError rest => .error .io { h with rx := rest }

/-- `wait_for_ready` (R177): the first `arrived` events are the pending input the host discards. -/
def waitForReady (arrived : Nat) (bound : Option Nat) : HostM Unit := do
  discardInput arrived
  awaitBanner bound
  handshake

/-! ### The session (R178, R179) -/

/-- The page size, host side only (R6). -/
def pageSize : Nat := 1024

/-- Page `i` of an image; the last one may be shorter (R178). -/
def pageAt (image : List Byte) (i : Nat) : List Byte := (image.drop (i * pageSize)).take pageSize

/-- The number of pages. -/
def pageCount (image : List Byte) : Nat := (image.length + (pageSize - 1)) / pageSize

/-- The OFFSET of page `i`: its byte offset modulo 65536 (R178, R179 WRAP; under FAIL no page reaches 65536). -/
def pageOffset (i : Nat) : Half := BitVec.ofNat 16 (i * pageSize)

/-- Whether the policy refuses an image before the first page (R179). -/
def imageRefused (policy : OffsetPolicy) (image : List Byte) : Bool := policy == .fail && decide (65536 < image.length)

/-- The pages with these indices, in order. -/
def flashPages (image : List Byte) : List Nat → HostM Unit
  | [] => pure ()
  | i :: is => do
    flashPage (pageAt image i) (pageOffset i)
    flashPages image is

/-- The session enters a phase. -/
def enterPhase (p : Phase) : HostM Unit := fun h => .ok () { h with phase := p }

/-- A whole session, with the policy and the bound as arguments (R178). Under FAIL a too-long image is refused after the
readiness wait and its handshake, when Transferring begins and before the first page: R179 says only "before the first
page", so where exactly is the model's choice (DESIGN CHOICE, log 11). R178 says when the session enters Transferring and
no more: that it enters Finalizing after the last page, before the last command's handshake, enters Done after that
command's Ack, and keeps its phase on a failure is the model's choice too (DESIGN CHOICE, log 11). -/
def sessionWith (policy : OffsetPolicy) (bound : Option Nat) (continueLoad : Bool) (arrived : Nat) (image : List Byte) :
    HostM Unit := do
  waitForReady arrived bound
  enterPhase .transferring
  if imageRefused policy image then throw .sizeExceeded else pure ()
  flashPages image (List.range (pageCount image))
  enterPhase .finalizing
  if continueLoad then sendLoad else sendReset
  enterPhase .done

/-- A whole session of this platform's host. -/
def session (continueLoad : Bool) (arrived : Nat) (image : List Byte) : HostM Unit :=
  sessionWith Config.hostOffsetPolicy Config.readyBound continueLoad arrived image

/-- The exit status of the host's process: zero on success, and not zero on a failure, where its value is a free value
(R180; log 10). A host that still waits for the banner has not exited. -/
def exitStatus : EStateM.Result HostFail Session Unit → Option Nat
  | .ok _ _ => some 0
  | .error .stillWaiting _ => none
  | .error e _ => some (Config.failExit e + 1)

/-- Nothing but (what left of) the Hello frame was written between `h` and `h'`, and the block was not touched; the whole
frame, when the transport does not fail on it. -/
structure Session.OnlyGreeted (h h' : Session) : Prop where
  tx : ∃ bs, bs <+: helloFrame ∧ h'.tx = h.tx ++ [bs] ∧ ((∀ left, h.writes.head? ≠ some (.ioError left)) → bs = helloFrame)
  block : h'.block = h.block

/-- The session before it starts: the block as reset leaves it, nothing written, a transport that takes every write. -/
def Session.start (rx : List RxEvent) : Session where
  block := State.reset
  phase := .awaitingDevice
  rx := rx
  writes := []
  tx := []

end Sys2Proof.Machine
end

