-- ==== Sys2Proof/Safety.lean ====
section
/-! DEFINITION. What counts as a safe run, in the terms the statements use: a host that never withdraws a request, and the
two invariants of the block, one for the CRC side (40_crc.md R91) and one for the frame buffer (41_frame.md R110, R111). -/

namespace Sys2Proof

/-- The accesses that are reads of a register or a reserved slot. -/
def Instr.isRead : Instr → Bool
  | .rdCmd | .rdData | .rdCrc | .rdLen | .rdStatus | .rdFrameLo | .rdFrameHi | .rdRsv _ => true
  | .nop | .encFlash _ | .encReset | .encLoad | .crcInit | .illegalCmd _ | .crcByte _ | .clrErr _ => false
  | .wrCrcIgn | .wrLenIgn | .wrFrameLoIgn | .wrFrameHiIgn | .wrRsv _ => false
  | .buserrSize8 _ _ | .buserrSize16 _ _ | .buserrSizeRsv _ _ => false
  | .buserrAlign1 _ _ | .buserrAlign2 _ _ | .buserrAlign3 _ _ => false

/-- The accesses the block answers with a bus error (R160). -/
def Instr.isBusError : Instr → Bool
  | .buserrSize8 _ _ | .buserrSize16 _ _ | .buserrSizeRsv _ _ => true
  | .buserrAlign1 _ _ | .buserrAlign2 _ _ | .buserrAlign3 _ _ => true
  | .rdCmd | .rdData | .rdCrc | .rdLen | .rdStatus | .rdFrameLo | .rdFrameHi | .rdRsv _ => false
  | .nop | .encFlash _ | .encReset | .encLoad | .crcInit | .illegalCmd _ | .crcByte _ | .clrErr _ => false
  | .wrCrcIgn | .wrLenIgn | .wrFrameLoIgn | .wrFrameHiIgn | .wrRsv _ => false

/-- The writes that change nothing: NOP, and the writes to read-only registers and reserved slots (R140, R144, R146). -/
def Instr.isQuietWrite : Instr → Bool
  | .nop | .wrCrcIgn | .wrLenIgn | .wrFrameLoIgn | .wrFrameHiIgn | .wrRsv _ => true
  | .encFlash _ | .encReset | .encLoad | .crcInit | .illegalCmd _ | .crcByte _ | .clrErr _ => false
  | .rdCmd | .rdData | .rdCrc | .rdLen | .rdStatus | .rdFrameLo | .rdFrameHi | .rdRsv _ => false
  | .buserrSize8 _ _ | .buserrSize16 _ _ | .buserrSizeRsv _ _ => false
  | .buserrAlign1 _ _ | .buserrAlign2 _ _ | .buserrAlign3 _ _ => false

/-- The bits of a word that its operation reads: the rest are reserved or ignored (R60 to R63, R68). -/
def Instr.actingBits : Instr → TW
  | .encFlash _ => 0x7FFFFFF00FF#43
  | .crcByte _ => 0x7FF000000FF#43
  | .clrErr _ => 0x7FF0000000C#43
  | .nop | .encReset | .encLoad | .crcInit | .illegalCmd _ => 0x7FF000000FF#43
  | .rdCmd | .rdData | .rdCrc | .rdLen | .rdStatus | .rdFrameLo | .rdFrameHi | .rdRsv _ => 0x7FF00000000#43
  | .wrCrcIgn | .wrLenIgn | .wrFrameLoIgn | .wrFrameHiIgn | .wrRsv _ => 0x7FF00000000#43
  | .buserrSize8 _ _ | .buserrSize16 _ _ | .buserrSizeRsv _ _ => 0x60000000000#43
  | .buserrAlign1 _ _ | .buserrAlign2 _ _ | .buserrAlign3 _ _ => 0x60300000000#43

namespace Machine

/-- No input of the queue is a withdrawn request: the host keeps the handshake's rule (R59). -/
def State.wellDriven (s : State) : Bool :=
  s.inputs.all fun
    | .withdrawn _ => false
    | .idle | .request _ | .reset _ => true

/-- `fed` is the sequence of bytes fed since the last CRC_INIT or block reset, as the three registers show it (R91). -/
structure State.Tracks (s : State) (fed : List Byte) : Prop where
  crc : s.crcAcc = crc16 fed
  len : s.lenCnt = BitVec.ofNat 16 fed.length
  ovf : s.lenOvf = decide (65536 ≤ fed.length)

/-- The sequence fed after one more access (R91): CRC_INIT starts it anew, CRC_BYTE extends it. -/
def fedAfter : Instr → List Byte → List Byte
  | .crcInit, _ => []
  | .crcByte b, fed => fed ++ [b]
  | .nop, fed | .encFlash _, fed | .encReset, fed | .encLoad, fed | .illegalCmd _, fed | .clrErr _, fed => fed
  | .rdCmd, fed | .rdData, fed | .rdCrc, fed | .rdLen, fed | .rdStatus, fed | .rdFrameLo, fed | .rdFrameHi, fed => fed
  | .wrCrcIgn, fed | .wrLenIgn, fed | .wrFrameLoIgn, fed | .wrFrameHiIgn, fed | .rdRsv _, fed | .wrRsv _, fed => fed
  | .buserrSize8 _ _, fed | .buserrSize16 _ _, fed | .buserrSizeRsv _ _, fed => fed
  | .buserrAlign1 _ _, fed | .buserrAlign2 _ _, fed | .buserrAlign3 _ _, fed => fed

/-- The sequence fed after the next input (R91, R190). -/
def fedAfterInput : List BusInput → List Byte → List Byte
  | .request r :: _, fed => fedAfter (decode r.tw) fed
  | .reset _ :: _, _ => []
  | .idle :: _, fed | .withdrawn _ :: _, fed | [], fed => fed

/-- A frame the block can hold: the reset contents, or one of the three layouts (R22, R110 to R114). -/
def frameLegal (f : Vector Byte 8) : Prop :=
  f = State.reset.frame ∨ (∃ length offset crc, f = flashFrame length offset crc) ∨ f = resetFrame ∨ f = loadFrame

/-- The frame buffer's invariant: a legal frame, and FRAME_VALID only over a frame that some command built (R26, R27). -/
structure State.FrameInv (s : State) : Prop where
  legal : frameLegal s.frame
  built : s.frameValid = true → s.frame ≠ State.reset.frame

/-- The seven elements of the block's architectural state, without the ports and the queue (R22). -/
structure State.SameBlock (s t : State) : Prop where
  crcAcc : t.crcAcc = s.crcAcc
  lenCnt : t.lenCnt = s.lenCnt
  lenOvf : t.lenOvf = s.lenOvf
  frame : t.frame = s.frame
  frameValid : t.frameValid = s.frameValid
  errIllegal : t.errIllegal = s.errIllegal
  errLen : t.errLen = s.errLen

/-- A run of accesses, one after another (R50); it stops at the first that gives no next state. -/
def execAll : List Instr → State → Host.Outcome State Fault Refusal
  | [], s => .next s
  | i :: is, s =>
    match exec i s with
    | .next t => execAll is t
    | .fault r => .fault r
    | .refused r => .refused r

end Machine

end Sys2Proof
end

