-- ==== Sys2Proof/Certificates/Slice0/Obligations.lean ====
section
/-! DEFINITION. The statements for the provers. Each names the rule of spec/ it formalises. The statements about one
operation say its encoding (by the match and mask its rule gives), that it completes, its whole effect and, by the record
update, its frame: every element of state that the update does not name is unchanged. -/

open Sys2Proof Sys2Proof.Machine

/-! ### Decode and encode -/

/-- Decode and encode agree, for every well-formed operation and every operand (R60, R61, R66). -/
def Obligations.DecodeOfEncodeIsIdentity : Prop := ∀ i : Instr, i.WellFormed → decode (encode i) = i

/-- R66: of the rows a word selects, decode takes the one with the lowest priority number, and two rows of one priority
never select one word. -/
def Obligations.DecodeTakesTheLowestPriorityRow : Prop :=
  (∀ w : TW, rowOf (decode w) ∈ opTable ∧ (rowOf (decode w)).selects w = true ∧
    ∀ r ∈ opTable, r.selects w = true → r ≠ rowOf (decode w) → (rowOf (decode w)).priority < r.priority) ∧
  (∀ w : TW, ∀ r ∈ opTable, ∀ q ∈ opTable, r.selects w = true → q.selects w = true → r.priority = q.priority → r = q)

/-- What decode answers is well-formed: a reserved OP, a reserved slot and a misaligned offset are what their operations
say they are (R65, R44, R146). -/
def Obligations.DecodedOperationIsWellFormed : Prop := ∀ w : TW, (decode w).WellFormed

/-- Words written out from the spec's encodings (R60, R61, R66) decode to their operations; sanity. -/
def Obligations.WrittenOutWordsDecode : Prop :=
  decode 0b1010000000000000100000000000000000000000001#43 = .encFlash 0x0400#16 ∧
  decode 0x504FFFFFF31#43 = .crcByte 0x31#8 ∧
  decode 0x50000000011#43 = .illegalCmd 0x11#8 ∧
  decode 0x51000000008#43 = .clrErr 0x00000008#32 ∧
  decode 0x40C00000000#43 = .rdLen ∧
  decode 0x50800001234#43 = .wrCrcIgn ∧
  decode 0x5FC00000001#43 = .wrRsv 0xFC#8 ∧
  decode 0x50100000001#43 = .buserrAlign1 true 0x01#8 ∧
  decode 0x10100000000#43 = .buserrSize8 true 0x01#8

/-- Reserved and ignored bits have no effect: two words that agree on the bits the operation reads do the same (R61, R68). -/
def Obligations.IgnoredBitsHaveNoEffect : Prop :=
  ∀ (w w' : TW) (s : State), w &&& (decode w).actingBits = w' &&& (decode w).actingBits →
    exec (decode w') s = exec (decode w) s

/-! ### The machine's steps -/

/-- A step runs the decoded access: the next request's transaction word is its wires, SIZE, W, ADDR and DATA, and the
step is `exec` of what it decodes to, on the state with that request taken off the queue (R50, R59, R60). Placing a
table word (the model's own `withFetchWord`, log 1) makes the next step run what that word decodes to. -/
def Obligations.StepRunsTheDecodedAccess : Prop :=
  (∀ (s : State) (r : Request) (rest : List BusInput), s.inputs = .request r :: rest →
    step s = exec (decode r.tw) { s with inputs := rest }) ∧
  (∀ r : Request, r.tw.extractLsb' 41 2 = r.size ∧ r.tw.getLsbD 40 = r.we ∧ r.tw.extractLsb' 32 8 = r.addr ∧
    r.tw.extractLsb' 0 32 = r.wdata) ∧
  (∀ (s : State) (nbits w : Nat) (i : Instr), decodeTableWord nbits w = some i → step (s.withFetchWord nbits w) = exec i s)

/-- An edge without a request, which an empty queue stands for too (the model's choice, log 1), leaves ready at 0 and
changes nothing else. -/
def Obligations.EdgeWithoutRequestChangesNothing : Prop :=
  (∀ s : State, s.inputs = [] → step s = .next { s with reply := .notReady }) ∧
  (∀ (s : State) (rest : List BusInput), s.inputs = .idle :: rest →
    step s = .next { s with reply := .notReady, inputs := rest })

/-- A request withdrawn before ready is refused by name (R59; log 4). -/
def Obligations.WithdrawnRequestIsRefused : Prop :=
  ∀ (s : State) (r : Request) (rest : List BusInput), s.inputs = .withdrawn r :: rest →
    step s = .refused .requestWithdrawn

/-- R22: the reset value of every element of state. -/
def Obligations.ResetStateHoldsTheSpecValues : Prop :=
  State.reset.crcAcc = 0xFFFF#16 ∧ State.reset.lenCnt = 0x0000#16 ∧ State.reset.lenOvf = false ∧
  State.reset.frame.toList = List.replicate 8 0x00#8 ∧ State.reset.frameValid = false ∧
  State.reset.errIllegal = false ∧ State.reset.errLen = false

/-- R190, R191: an edge with rst = 1, whatever access is pending, gives every element its reset value and no ready; every
aligned 32-bit read then returns 0, except CRC, which returns 0xFFFF. -/
def Obligations.BlockResetRestoresEveryElement : Prop :=
  ∀ (s : State) (pending : Option Request) (rest : List BusInput), s.inputs = .reset pending :: rest →
    step s = .next { State.reset with inputs := rest } ∧
    (∀ t : State, step s = .next t → t.reply.ready = false ∧
      ∀ off : Offset, off.extractLsb' 0 2 = 0#2 →
        exec (decode (mkTW 0b10#2 false off 0#32)) t =
          .next { t with reply := .read (if off = 0x08#8 then 0x0000FFFF#32 else 0x00000000#32) })

/-- Every access completes, whatever the state: no operation is refused and none stops the block (R160, R162, R166). -/
def Obligations.EveryAccessCompletes : Prop :=
  ∀ (i : Instr) (s : State), ∃ t, exec i s = .next t ∧ t.reply.ready = true ∧ t.inputs = s.inputs

/-- While the host keeps the handshake's rule, every step gives a next state in which it still does (R59). -/
def Obligations.WellDrivenMachineNeverStops : Prop :=
  ∀ s : State, s.wellDriven = true → ∃ t, step s = .next t ∧ t.wellDriven = true

/-- R43, R44, R45: an access gets the bus error response exactly when its size is not 32 bits or its offset is not
word-aligned, it then changes no state, and the size is checked first. Every other access completes with err = 0, and a
read with its word on rdata (R58, R59). -/
def Obligations.BusErrorExactlyOnBadSizeOrAlignment : Prop :=
  (∀ (w : TW) (s : State), ∃ t, exec (decode w) s = .next t ∧ t.reply.ready = true ∧
    (w.extractLsb' 41 2 ≠ 0b10#2 ∨ w.extractLsb' 32 2 ≠ 0b00#2 →
      t.reply.err = some true ∧ t = { s with reply := .busError }) ∧
    (w.extractLsb' 41 2 = 0b10#2 → w.extractLsb' 32 2 = 0b00#2 →
      t.reply.err = some false ∧
      (w.getLsbD 40 = true → t.reply = .wrote) ∧ (w.getLsbD 40 = false → ∃ v, t.reply = .read v)) ∧
    (w.extractLsb' 41 2 ≠ 0b10#2 →
      (∃ we off, decode w = .buserrSize8 we off) ∨ (∃ we off, decode w = .buserrSize16 we off) ∨
      (∃ we off, decode w = .buserrSizeRsv we off))) ∧
  (∀ v : Word, (Reply.read v).ready = true ∧ (Reply.read v).err = some false ∧ (Reply.read v).rdata = some v) ∧
  Reply.wrote.ready = true ∧ Reply.wrote.err = some false

/-- R162: a bus error completes with ready = 1, err = 1 and rdata = 0, and no register changes. -/
def Obligations.BusErrorResponse : Prop :=
  (∀ (we : Bool) (off : Offset) (s : State),
    exec (.buserrSize8 we off) s = .next { s with reply := .busError } ∧
    exec (.buserrSize16 we off) s = .next { s with reply := .busError } ∧
    exec (.buserrSizeRsv we off) s = .next { s with reply := .busError } ∧
    exec (.buserrAlign1 we off) s = .next { s with reply := .busError } ∧
    exec (.buserrAlign2 we off) s = .next { s with reply := .busError } ∧
    exec (.buserrAlign3 we off) s = .next { s with reply := .busError }) ∧
  Reply.busError.ready = true ∧ Reply.busError.err = some true ∧ Reply.busError.rdata = some 0#32

/-- R49: a read has no side effect at any offset, and doing it again answers the same. -/
def Obligations.ReadsHaveNoSideEffects : Prop :=
  ∀ (w : TW) (s : State), w.getLsbD 40 = false →
    ∃ t, exec (decode w) s = .next t ∧ s.SameBlock t ∧ t.inputs = s.inputs ∧ exec (decode w) t = .next t

/-- Which operation may change which element, and which way (R23 to R29). -/
def Obligations.OnlyTheNamedOperationsChangeState : Prop :=
  ∀ (i : Instr) (s t : State), exec i s = .next t →
    (t.crcAcc ≠ s.crcAcc → i = .crcInit ∨ ∃ b, i = .crcByte b) ∧
    (t.lenCnt ≠ s.lenCnt → i = .crcInit ∨ ∃ b, i = .crcByte b) ∧
    (s.lenOvf = false → t.lenOvf = true → s.lenCnt = 0xFFFF#16 ∧ ∃ b, i = .crcByte b) ∧
    (s.lenOvf = true → t.lenOvf = false → i = .crcInit) ∧
    (t.frame ≠ s.frame → (∃ o, i = .encFlash o ∧ s.lenOvf = false) ∨ i = .encReset ∨ i = .encLoad) ∧
    (s.frameValid = false → t.frameValid = true → (∃ o, i = .encFlash o ∧ s.lenOvf = false) ∨ i = .encReset ∨ i = .encLoad) ∧
    (s.frameValid = true → t.frameValid = false → ∃ o, i = .encFlash o ∧ s.lenOvf = true) ∧
    (s.errIllegal = false → t.errIllegal = true → ∃ op, i = .illegalCmd op) ∧
    (s.errIllegal = true → t.errIllegal = false → ∃ m : Word, i = .clrErr m ∧ m.getLsbD 2 = true) ∧
    (s.errLen = false → t.errLen = true → ∃ o, i = .encFlash o ∧ s.lenOvf = true) ∧
    (s.errLen = true → t.errLen = false → ∃ m : Word, i = .clrErr m ∧ m.getLsbD 3 = true)

/-- R28, R29: the error bits block no later operation. Two states that differ in them alone stay so in everything else, and
answer every access alike, but for a read of STATUS, which shows them. -/
def Obligations.ErrorBitsBlockNothing : Prop :=
  ∀ (i : Instr) (s : State) (a b : Bool), ∃ t u, exec i s = .next t ∧ exec i { s with errIllegal := a, errLen := b } = .next u ∧
    u.crcAcc = t.crcAcc ∧ u.lenCnt = t.lenCnt ∧ u.lenOvf = t.lenOvf ∧ u.frame = t.frame ∧ u.frameValid = t.frameValid ∧
    u.inputs = t.inputs ∧ (i ≠ .rdStatus → u.reply = t.reply)

/-! ### The CRC generator -/

/-- R80, R81, R82: one round, one byte (eight rounds, the byte XORed into the high byte) and a byte sequence. -/
def Obligations.CrcOfRoundByteAndSequence : Prop :=
  (∀ a : Half, crcRound a = if a.getLsbD 15 = true then (a <<< 1) ^^^ 0x1021#16 else a <<< 1) ∧
  (∀ (a : Half) (d : Byte), crcByte a d =
    crcRound (crcRound (crcRound (crcRound (crcRound (crcRound (crcRound (crcRound (a ^^^ (d ++ 0x00#8)))))))))) ∧
  crc16 [] = 0xFFFF#16 ∧
  (∀ (s : List Byte) (b : Byte), crc16 (s ++ [b]) = crcByte (crc16 s) b)

/-- R84, R85, R86: each entry of the table is eight rounds of its index in the high byte; the shift register, the look-up table and the XOR network all compute crc_byte of R81, and CRC_BYTE leaves in
CRC_ACC what any of them computes, and every other register as if there were no choice. -/
def Obligations.EveryCrcImplementationAgrees : Prop :=
  (∀ i : Byte, crcEntry i = crcRounds 8 (i ++ 0x00#8)) ∧
  (∀ (a : Half) (d : Byte), crcByte a d = (a <<< 8) ^^^ crcEntry (a.extractLsb' 8 8 ^^^ d)) ∧
  (∀ (impl : CrcImpl) (a : Half) (d : Byte), crcByteBy impl a d = crcByte a d) ∧
  (∀ (impl : CrcImpl) (d : Byte) (s : State), exec (.crcByte d) s =
    .next { s with
      crcAcc := crcByteBy impl s.crcAcc d
      lenOvf := if s.lenCnt = 0xFFFF#16 then true else s.lenOvf
      lenCnt := BitVec.ofNat 16 (s.lenCnt.toNat + 1)
      reply := .wrote })

/-- R83: keeping the value unmasked between rounds and masking once after the eighth gives exactly R81. -/
def Obligations.MaskingOnceAfterEightRoundsAgrees : Prop := ∀ (a : Half) (d : Byte), crcByteMaskedLate a d = crcByte a d

/-- R92 (c): crc_byte is linear over XOR. -/
def Obligations.CrcByteIsLinear : Prop :=
  ∀ (a b : Half) (d e : Byte), crcByte (a ^^^ b) (d ^^^ e) = crcByte a d ^^^ crcByte b e

/-- R92 (b): appending the CRC, high byte first, gives residue 0. -/
def Obligations.CrcResidueIsZero : Prop :=
  ∀ s : List Byte, crc16 (s ++ [(crc16 s).extractLsb' 8 8, (crc16 s).extractLsb' 0 8]) = 0x0000#16

/-- R87: CRC_INIT, its encoding and its whole effect. -/
def Obligations.CrcInitStartsANewComputation : Prop :=
  (∀ w : TW, w &&& 0x7FF000000FF#43 = 0x50000000010#43 → decode w = .crcInit) ∧
  (∀ s : State, exec .crcInit s =
    .next { s with crcAcc := 0xFFFF#16, lenCnt := 0x0000#16, lenOvf := false, reply := .wrote })

/-- R88: CRC_BYTE, its encoding and its whole effect. -/
def Obligations.CrcByteFeedsOneByte : Prop :=
  (∀ w : TW, w &&& 0x7FF00000000#43 = 0x50400000000#43 → decode w = .crcByte (w.extractLsb' 0 8)) ∧
  (∀ (b : Byte) (s : State), exec (.crcByte b) s =
    .next { s with
      crcAcc := crcByte s.crcAcc b
      lenOvf := if s.lenCnt = 0xFFFF#16 then true else s.lenOvf
      lenCnt := BitVec.ofNat 16 (s.lenCnt.toNat + 1)
      reply := .wrote })

/-- R89, R90: RD_CRC and RD_LEN return the zero-extended registers and change nothing. -/
def Obligations.ReadCrcAndReadLen : Prop :=
  (∀ w : TW, w &&& 0x7FF00000000#43 = 0x40800000000#43 → decode w = .rdCrc) ∧
  (∀ s : State, exec .rdCrc s = .next { s with reply := .read (0x0000#16 ++ s.crcAcc) }) ∧
  (∀ w : TW, w &&& 0x7FF00000000#43 = 0x40C00000000#43 → decode w = .rdLen) ∧
  (∀ s : State, exec .rdLen s = .next { s with reply := .read (0x0000#16 ++ s.lenCnt) })

/-- R91: after every step, CRC_ACC, LEN_CNT and LEN_OVF are the CRC, the length modulo 65536 and the overflow of the bytes
fed since the last CRC_INIT or block reset. -/
def Obligations.RegistersTrackTheBytesFed : Prop :=
  ∀ (s t : State) (fed : List Byte), s.Tracks fed → step s = .next t → t.Tracks (fedAfterInput s.inputs fed)

/-- After reset the registers show that no byte was fed. -/
def Obligations.ResetTracksNothingFed : Prop := State.reset.Tracks []

/-! ### The frame encoder -/

/-- R112, R113, R114: the three layouts, byte by byte. -/
def Obligations.FrameLayouts : Prop :=
  (∀ L O C : Half, (flashFrame L O C).toList =
    [0x01#8, 0x00#8, L.extractLsb' 0 8, L.extractLsb' 8 8, O.extractLsb' 0 8, O.extractLsb' 8 8,
      C.extractLsb' 0 8, C.extractLsb' 8 8]) ∧
  resetFrame.toList = [0x02#8, 0x00#8, 0x00#8, 0x00#8, 0x00#8, 0x00#8, 0x00#8, 0x00#8] ∧
  loadFrame.toList = [0x03#8, 0x00#8, 0x00#8, 0x00#8, 0x00#8, 0x00#8, 0x00#8, 0x00#8]

/-- R115: the three layouts as FRAME_LO and FRAME_HI read. -/
def Obligations.FrameLayoutsAsRegisterWords : Prop :=
  (∀ L O C : Half, frameLoWord (flashFrame L O C) = L ++ 0x00#8 ++ 0x01#8 ∧
    frameLoWord (flashFrame L O C) = (L.setWidth 32 <<< 16) ||| 0x00000001#32 ∧
    frameHiWord (flashFrame L O C) = C ++ O ∧
    frameHiWord (flashFrame L O C) = (C.setWidth 32 <<< 16) ||| O.setWidth 32) ∧
  frameLoWord resetFrame = 0x00000002#32 ∧ frameHiWord resetFrame = 0x00000000#32 ∧
  frameLoWord loadFrame = 0x00000003#32 ∧ frameHiWord loadFrame = 0x00000000#32

/-- R47: the wire order is FRAME[0] first; each byte sits at weight 2^(8(k mod 4)) of its word; and a host that stores
FRAME_LO and then FRAME_HI as little-endian words holds the frame in wire order. -/
def Obligations.FrameWordsHoldTheWireOrder : Prop :=
  (∀ (f : Vector Byte 8) (k : Fin 8),
    f[k] = ((if k.val < 4 then frameLoWord f else frameHiWord f) >>> (8 * (k.val % 4))).extractLsb' 0 8) ∧
  (∀ f : Vector Byte 8, wordBytes (frameLoWord f) ++ wordBytes (frameHiWord f) = f.toList)

/-- R116, R163: ENC_FLASH, its encoding, the header it builds from LEN_CNT, OFFSET and CRC_ACC, and its refusal while
LEN_OVF is 1, in which FRAME, CRC_ACC, LEN_CNT and LEN_OVF stay. -/
def Obligations.EncFlashBuildsOrIsRefused : Prop :=
  (∀ w : TW, w &&& 0x7FF000000FF#43 = 0x50000000001#43 → decode w = .encFlash (w.extractLsb' 16 16)) ∧
  (∀ (o : Half) (s : State), s.lenOvf = false → exec (.encFlash o) s =
    .next { s with frame := flashFrame s.lenCnt o s.crcAcc, frameValid := true, reply := .wrote }) ∧
  (∀ (o : Half) (s : State), s.lenOvf = true → exec (.encFlash o) s =
    .next { s with errLen := true, frameValid := false, reply := .wrote })

/-- R117, R118: ENC_RESET and ENC_LOAD, their encodings and effects; they never fail. -/
def Obligations.EncResetAndEncLoadBuildTheirFrames : Prop :=
  (∀ w : TW, w &&& 0x7FF000000FF#43 = 0x50000000002#43 → decode w = .encReset) ∧
  (∀ s : State, exec .encReset s = .next { s with frame := resetFrame, frameValid := true, reply := .wrote }) ∧
  (∀ w : TW, w &&& 0x7FF000000FF#43 = 0x50000000003#43 → decode w = .encLoad) ∧
  (∀ s : State, exec .encLoad s = .next { s with frame := loadFrame, frameValid := true, reply := .wrote })

/-- R119, R120: RD_FRAME_LO and RD_FRAME_HI return the buffer's bytes, whatever FRAME_VALID is, and change nothing. -/
def Obligations.ReadFrameWords : Prop :=
  (∀ w : TW, w &&& 0x7FF00000000#43 = 0x41400000000#43 → decode w = .rdFrameLo) ∧
  (∀ s : State, exec .rdFrameLo s = .next { s with reply := .read (s.frame[3] ++ s.frame[2] ++ s.frame[1] ++ s.frame[0]) }) ∧
  (∀ w : TW, w &&& 0x7FF00000000#43 = 0x41800000000#43 → decode w = .rdFrameHi) ∧
  (∀ s : State, exec .rdFrameHi s = .next { s with reply := .read (s.frame[7] ++ s.frame[6] ++ s.frame[5] ++ s.frame[4]) })

/-- R122: for any payload and offset, CRC_INIT, the payload's bytes and ENC_FLASH leave the length, the offset and the CRC
of the payload in the frame, little-endian, or are refused when 65536 bytes or more were fed. -/
def Obligations.FlashHeaderDescribesThePayload : Prop :=
  ∀ (p : List Byte) (o : Half) (s : State), ∃ t,
    execAll (.crcInit :: p.map .crcByte ++ [.encFlash o]) s = .next t ∧
    (p.length < 65536 →
      t.frameValid = true ∧
      t.frame[3] ++ t.frame[2] = BitVec.ofNat 16 p.length ∧
      t.frame[5] ++ t.frame[4] = o ∧
      t.frame[7] ++ t.frame[6] = crc16 p) ∧
    (65536 ≤ p.length → t.frameValid = false ∧ t.errLen = true)

/-- Every step keeps the frame buffer legal: the reset contents or one of the three layouts, and FRAME_VALID only over a
frame that a command built (R26, R27, R110, R111). -/
def Obligations.FrameBufferStaysLegal : Prop := ∀ s t : State, s.FrameInv → step s = .next t → t.FrameInv

/-- After reset the frame buffer is legal. -/
def Obligations.ResetFrameBufferIsLegal : Prop := State.reset.FrameInv

/-! ### Control, status and reserved accesses -/

/-- R140: NOP, its encoding; nothing changes. -/
def Obligations.NopDoesNothing : Prop :=
  (∀ w : TW, w &&& 0x7FF000000FF#43 = 0x50000000000#43 → decode w = .nop) ∧
  (∀ s : State, exec .nop s = .next { s with reply := .wrote })

/-- R141: RD_STATUS, its encoding, and the four flags it returns, clearing none. -/
def Obligations.ReadStatusShowsTheFlags : Prop :=
  (∀ w : TW, w &&& 0x7FF00000000#43 = 0x41000000000#43 → decode w = .rdStatus) ∧
  (∀ s : State, ∃ v : Word, exec .rdStatus s = .next { s with reply := .read v } ∧
    v.getLsbD 0 = s.frameValid ∧ v.getLsbD 1 = s.lenOvf ∧ v.getLsbD 2 = s.errIllegal ∧ v.getLsbD 3 = s.errLen ∧
    v.extractLsb' 4 28 = 0#28)

/-- R142: CLR_ERR, its encoding, and its write-1-to-clear effect on ERR_ILLEGAL and ERR_LEN alone. -/
def Obligations.ClrErrClearsOnlyTheErrorBits : Prop :=
  (∀ w : TW, w &&& 0x7FF00000000#43 = 0x51000000000#43 → decode w = .clrErr (w.extractLsb' 0 32)) ∧
  (∀ (m : Word) (s : State), exec (.clrErr m) s =
    .next { s with
      errIllegal := if m.getLsbD 2 = true then false else s.errIllegal
      errLen := if m.getLsbD 3 = true then false else s.errLen
      reply := .wrote })

/-- R143, R161: a CMD write with a reserved OP sets ERR_ILLEGAL and changes nothing else. -/
def Obligations.IllegalCommandSetsErrIllegal : Prop :=
  (∀ w : TW, w &&& 0x7FF00000000#43 = 0x50000000000#43 →
    w.extractLsb' 0 8 ∉ [0x00#8, 0x01#8, 0x02#8, 0x03#8, 0x10#8] → decode w = .illegalCmd (w.extractLsb' 0 8)) ∧
  (∀ (op : Byte) (s : State), exec (.illegalCmd op) s = .next { s with errIllegal := true, reply := .wrote })

/-- R144: a write to a read-only register is ignored. -/
def Obligations.WritesToReadOnlyRegistersAreIgnored : Prop :=
  (∀ w : TW,
    (w &&& 0x7FF00000000#43 = 0x50800000000#43 → decode w = .wrCrcIgn) ∧
    (w &&& 0x7FF00000000#43 = 0x50C00000000#43 → decode w = .wrLenIgn) ∧
    (w &&& 0x7FF00000000#43 = 0x51400000000#43 → decode w = .wrFrameLoIgn) ∧
    (w &&& 0x7FF00000000#43 = 0x51800000000#43 → decode w = .wrFrameHiIgn)) ∧
  (∀ s : State,
    exec .wrCrcIgn s = .next { s with reply := .wrote } ∧ exec .wrLenIgn s = .next { s with reply := .wrote } ∧
    exec .wrFrameLoIgn s = .next { s with reply := .wrote } ∧ exec .wrFrameHiIgn s = .next { s with reply := .wrote })

/-- R145: a read of a write-only register returns 0 and changes nothing. -/
def Obligations.WriteOnlyRegistersReadAsZero : Prop :=
  (∀ w : TW,
    (w &&& 0x7FF00000000#43 = 0x40000000000#43 → decode w = .rdCmd) ∧
    (w &&& 0x7FF00000000#43 = 0x40400000000#43 → decode w = .rdData)) ∧
  (∀ s : State,
    exec .rdCmd s = .next { s with reply := .read 0x00000000#32 } ∧
    exec .rdData s = .next { s with reply := .read 0x00000000#32 })

/-- R146: a reserved slot, offset 0x1C to 0xFC, reads as zero and ignores writes, and is no bus error. -/
def Obligations.ReservedSlotsReadAsZeroAndIgnoreWrites : Prop :=
  (∀ w : TW, w &&& 0x70300000000#43 = 0x40000000000#43 → 0x1C#8 ≤ w.extractLsb' 32 8 →
    decode w = .rdRsv (w.extractLsb' 32 8)) ∧
  (∀ w : TW, w &&& 0x70300000000#43 = 0x50000000000#43 → 0x1C#8 ≤ w.extractLsb' 32 8 →
    decode w = .wrRsv (w.extractLsb' 32 8)) ∧
  (∀ (off : Offset) (s : State),
    exec (.rdRsv off) s = .next { s with reply := .read 0x00000000#32 } ∧
    exec (.wrRsv off) s = .next { s with reply := .wrote })

/-! ### The assembler and the host -/

/-- R70, R71: every form without an operand assembles to the word or words the rules print; every form with operands
assembles to its base word (SIZE, W and ADDR, DATA as printed) with the operands in place, and is refused exactly when one
is out of range. That the value of a sub-word write may be any 32-bit number is the model's choice (log 12). -/
def Obligations.AssemblerPlacesOperandsOrRefusesThem : Prop :=
  (∀ b : Nat, assemble (.crcByte b) =
    if b < 256 then .ok [0x50400000000#43 ||| BitVec.ofNat 43 b] else .error .outOfRange) ∧
  (∀ o : Nat, assemble (.encFlash o) =
    if o < 65536 then .ok [0x50000000001#43 ||| (BitVec.ofNat 43 o <<< 16)] else .error .outOfRange) ∧
  (∀ m : Nat, assemble (.clrErr m) =
    if m < 2 ^ 32 then .ok [0x51000000000#43 ||| BitVec.ofNat 43 m] else .error .outOfRange) ∧
  (∀ off v : Nat,
    assemble (.wr off v) = (if off < 256 ∧ v < 2 ^ 32
      then .ok [0x50000000000#43 ||| (BitVec.ofNat 43 off <<< 32) ||| BitVec.ofNat 43 v] else .error .outOfRange) ∧
    assemble (.wrB off v) = (if off < 256 ∧ v < 2 ^ 32
      then .ok [0x10000000000#43 ||| (BitVec.ofNat 43 off <<< 32) ||| BitVec.ofNat 43 v] else .error .outOfRange) ∧
    assemble (.wrH off v) = (if off < 256 ∧ v < 2 ^ 32
      then .ok [0x30000000000#43 ||| (BitVec.ofNat 43 off <<< 32) ||| BitVec.ofNat 43 v] else .error .outOfRange)) ∧
  (∀ off : Nat,
    assemble (.rd off) =
      (if off < 256 then .ok [0x40000000000#43 ||| (BitVec.ofNat 43 off <<< 32)] else .error .outOfRange) ∧
    assemble (.rdB off) =
      (if off < 256 then .ok [0x00000000000#43 ||| (BitVec.ofNat 43 off <<< 32)] else .error .outOfRange) ∧
    assemble (.rdH off) =
      (if off < 256 then .ok [0x20000000000#43 ||| (BitVec.ofNat 43 off <<< 32)] else .error .outOfRange)) ∧
  assemble .nop = .ok [0x50000000000#43] ∧ assemble .crcInit = .ok [0x50000000010#43] ∧
  assemble .encReset = .ok [0x50000000002#43] ∧ assemble .encLoad = .ok [0x50000000003#43] ∧
  assemble .rdCmd = .ok [0x40000000000#43] ∧ assemble .rdData = .ok [0x40400000000#43] ∧
  assemble .rdCrc = .ok [0x40800000000#43] ∧ assemble .rdLen = .ok [0x40C00000000#43] ∧
  assemble .rdStatus = .ok [0x41000000000#43] ∧ assemble .rdFrameLo = .ok [0x41400000000#43] ∧
  assemble .rdFrameHi = .ok [0x41800000000#43] ∧ assemble .clrErrAll = .ok [0x5100000000C#43] ∧
  assemble .frameRead = .ok [0x41400000000#43, 0x41800000000#43]

/-- R71: each pseudo-instruction assembles to its expansion. That REPEAT may repeat any line, a pseudo-instruction too, is
the model's choice (log 12). -/
def Obligations.PseudoInstructionsExpand : Prop :=
  (∀ bs : List Nat, assemble (.crcBytes bs) = assembleAll (bs.map .crcByte)) ∧
  (∀ cs : List Nat, (∀ c ∈ cs, c < 128) → assemble (.crcStr cs) = assembleAll (cs.map .crcByte)) ∧
  (∀ (n : Nat) (l : AsmLine) (ws : List TW), assemble l = .ok ws → assemble (.rept n l) = assembleAll (List.replicate n l)) ∧
  (∀ (o : Nat) (bs : List Nat), assemble (.page o bs) = assembleAll ([.crcInit, .crcBytes bs, .encFlash o])) ∧
  assemble .clrErrAll = assembleAll [.clrErr 0x0000000C] ∧
  assemble .frameRead = assembleAll [.rdFrameLo, .rdFrameHi]

/-- R174, R180: when the handshake does not succeed, because its response is not Ack (Nack, any other byte, silence or a
transport failure) or its own write fails, no command frame is written: the command fails, nothing but the Hello frame was
written to the channel, and the block was not touched (the block steps of R175 and R176 come after the handshake). It
holds for the model's host, whose channel is a script: a script of reads that has ended is silence, one of writes is
success (the model's choice, log 11). -/
def Obligations.NoCommandFrameWithoutAck : Prop :=
  ∀ h : Session, (h.rx.head? ≠ some (.byte 0x01#8) ∨ ∃ left, h.writes.head? = some (.ioError left)) →
    (∀ (payload : List Byte) (offset : Half), ∃ e h', flashPage payload offset h = .error e h' ∧ h.OnlyGreeted h') ∧
    (∃ e h', sendReset h = .error e h' ∧ h.OnlyGreeted h') ∧
    (∃ e h', sendLoad h = .error e h' ∧ h.OnlyGreeted h')

/-- R175: with a device that acknowledges, a transport that takes the three writes, and no error bit set, a page of fewer
than 65536 bytes puts the Hello frame, the Flash header of that payload and the payload itself on the channel, in this
order, with one Ack read after each. It holds for the model's host, which issues CRC_INIT on every page and checks
FRAME_VALID and both error bits at once (the model's choice, log 11). -/
def Obligations.FlashPageWritesHeaderThenPayload : Prop :=
  ∀ (h : Session) (payload : List Byte) (offset : Half) (rest : List RxEvent),
    h.rx = .byte 0x01#8 :: .byte 0x01#8 :: .byte 0x01#8 :: rest →
    (∀ e ∈ h.writes.take 3, e = .sent) →
    h.block.errIllegal = false → h.block.errLen = false → payload.length < 65536 →
    ∃ h', flashPage payload offset h = .ok () h' ∧ h'.rx = rest ∧ h'.writes = h.writes.drop 3 ∧
      h'.tx = h.tx ++
        [helloFrame, (flashFrame (BitVec.ofNat 16 payload.length) offset (crc16 payload)).toList, payload]
end

