-- ==== Sys2Proof/Laws/Crc.lean ====
section
/-! SUPPORT. Small lemmas about the CRC: rounds are linear, feeding composes, and the two halves of an accumulator. -/

namespace Sys2Proof.Machine

/-- A round without a branch on the whole value (R80, R92). -/
theorem crcRound_eq (a : Half) : crcRound a = (a <<< 1) ^^^ (if a.getLsbD 15 then crcPoly else 0#16) := by
  unfold crcRound
  split <;> simp

@[simp] theorem crcRounds_zero (a : Half) : crcRounds 0 a = a := rfl

theorem crcRounds_succ (n : Nat) (a : Half) : crcRounds (n + 1) a = crcRounds n (crcRound a) := rfl

@[simp] theorem crcFeed_nil (a : Half) : crcFeed a [] = a := rfl

@[simp] theorem crcFeed_cons (a : Half) (b : Byte) (s : List Byte) : crcFeed a (b :: s) = crcFeed (crcByte a b) s := rfl

/-- Feeding two sequences is feeding one after the other (R82). -/
@[simp] theorem crcFeed_append (a : Half) (s t : List Byte) : crcFeed a (s ++ t) = crcFeed (crcFeed a s) t := by
  simp [crcFeed]

/-- The CRC continues where the first sequence ended (R82, R196). -/
theorem crc16_append (s t : List Byte) : crc16 (s ++ t) = crcFeed (crc16 s) t := by
  simp [crc16]

/-- The entry of the constant table, by its definition (R84). -/
theorem crcEntry_eq (i : Byte) : crcEntry i = crcRounds 8 (i ++ 0x00#8) := by
  simp [crcEntry, crcTable]

/-- XOR of two bytes placed in the high byte. -/
theorem highPlaced_xor (d e : Byte) : ((d ^^^ e) ++ 0x00#8 : Half) = (d ++ 0x00#8) ^^^ (e ++ 0x00#8) := by
  apply BitVec.eq_of_getLsbD_eq
  intro i hi
  simp only [BitVec.getLsbD_xor, BitVec.getLsbD_append]
  split <;> simp

/-- A byte property that holds of all 256 values, checked by evaluation. -/
theorem forall_byte (P : Byte → Bool) (h : (List.range 256).all (fun n => P (BitVec.ofNat 8 n)) = true) (x : Byte) :
    P x = true := by
  have hx := List.all_eq_true.1 h x.toNat (by simpa using x.isLt)
  simpa using hx

end Sys2Proof.Machine
end

