-- ==== Sys2Proof/Laws/Decode.lean ====
section
/-! SUPPORT. The fields of a composed transaction word, and of the words an instruction is encoded to. -/

namespace Sys2Proof

/-! ### A transaction word is its four fields (R60) -/

@[simp] theorem twSize_mkTW (size : BitVec 2) (we : Bool) (off : Offset) (d : Word) :
    twSize (mkTW size we off d) = size := by
  ext i hi
  simp only [twSize, mkTW, BitVec.getElem_extractLsb', BitVec.getLsbD_append]
  have h1 : ¬ 41 + i < 32 := by omega
  have h2 : ¬ 41 + i - 32 < 8 := by omega
  have h3 : ¬ 41 + i - 32 - 8 < 1 := by omega
  have h4 : 41 + i - 32 - 8 - 1 = i := by omega
  simp [h1, h2, h3, h4, BitVec.getLsbD_eq_getElem hi]

@[simp] theorem twWrite_mkTW (size : BitVec 2) (we : Bool) (off : Offset) (d : Word) :
    twWrite (mkTW size we off d) = we := by
  simp only [twWrite, mkTW, BitVec.getLsbD_append]
  simp

@[simp] theorem twAddr_mkTW (size : BitVec 2) (we : Bool) (off : Offset) (d : Word) :
    twAddr (mkTW size we off d) = off := by
  ext i hi
  simp only [twAddr, mkTW, BitVec.getElem_extractLsb', BitVec.getLsbD_append]
  have h1 : ¬ 32 + i < 32 := by omega
  simp [h1, hi]

@[simp] theorem twData_mkTW (size : BitVec 2) (we : Bool) (off : Offset) (d : Word) :
    twData (mkTW size we off d) = d := by
  ext i hi
  simp only [twData, mkTW, BitVec.getElem_extractLsb', BitVec.getLsbD_append]
  simp [hi]

/-- Decoding a composed word is decoding its fields. -/
@[simp] theorem decode_mkTW (size : BitVec 2) (we : Bool) (off : Offset) (d : Word) :
    decode (mkTW size we off d) = decodeFields size we off d := by
  simp [decode]

/-- A word is composed of its own fields. -/
theorem mkTW_fields (w : TW) : mkTW (twSize w) (twWrite w) (twAddr w) (twData w) = w := by
  apply BitVec.eq_of_getLsbD_eq
  intro i hi
  simp only [mkTW, twSize, twWrite, twAddr, twData, BitVec.getLsbD_append, BitVec.getLsbD_extractLsb',
    BitVec.getLsbD_ofBool]
  by_cases h1 : i < 32
  · simp [h1]
  · by_cases h2 : i - 32 < 8
    · have h3 : 32 + (i - 32) = i := by omega
      simp [h1, h2, h3]
    · by_cases h4 : i - 32 - 8 < 1
      · have h5 : i = 40 := by omega
        subst h5
        simp
      · have h6 : i - 32 - 8 - 1 < 2 := by omega
        have h7 : 41 + (i - 32 - 8 - 1) = i := by omega
        simp [h1, h2, h4, h6, h7]

/-- Two composed words are equal exactly when their fields are. -/
theorem mkTW_inj {size size' : BitVec 2} {we we' : Bool} {off off' : Offset} {d d' : Word} :
    mkTW size we off d = mkTW size' we' off' d' ↔ size = size' ∧ we = we' ∧ off = off' ∧ d = d' := by
  constructor
  · intro h
    exact ⟨by simpa using congrArg twSize h, by simpa using congrArg twWrite h, by simpa using congrArg twAddr h,
      by simpa using congrArg twData h⟩
  · rintro ⟨rfl, rfl, rfl, rfl⟩
    rfl

/-- Two words are equal exactly when their fields are. -/
theorem tw_eq_iff {w w' : TW} :
    w = w' ↔ twSize w = twSize w' ∧ twWrite w = twWrite w' ∧ twAddr w = twAddr w' ∧ twData w = twData w' := by
  rw [← mkTW_inj, mkTW_fields, mkTW_fields]

@[simp] theorem twSize_and (w w' : TW) : twSize (w &&& w') = twSize w &&& twSize w' := by
  ext i hi
  simp [twSize]

@[simp] theorem twWrite_and (w w' : TW) : twWrite (w &&& w') = (twWrite w && twWrite w') := by
  simp [twWrite]

@[simp] theorem twAddr_and (w w' : TW) : twAddr (w &&& w') = twAddr w &&& twAddr w' := by
  ext i hi
  simp [twAddr]

@[simp] theorem twData_and (w w' : TW) : twData (w &&& w') = twData w &&& twData w' := by
  ext i hi
  simp [twData]

/-- A word selects a mask and a match exactly when each of its fields does (R66). -/
theorem select_fields (w mask mtch : TW) :
    w &&& mask = mtch ↔
      twSize w &&& twSize mask = twSize mtch ∧ (twWrite w && twWrite mask) = twWrite mtch ∧
        twAddr w &&& twAddr mask = twAddr mtch ∧ twData w &&& twData mask = twData mtch := by
  rw [tw_eq_iff]
  simp

theorem and_three (x : BitVec 2) : x &&& 3#2 = x := BitVec.and_allOnes

theorem and_ff (x : Byte) : x &&& 0xFF#8 = x := BitVec.and_allOnes

theorem opField_and (d d' : Word) : opField (d &&& d') = opField d &&& opField d' := BitVec.extractLsb'_and

theorem offLow_and (x x' : Offset) : offLow (x &&& x') = offLow x &&& offLow x' := BitVec.extractLsb'_and

/-- The mask 0x7FF00000000 selects the size, the direction and the offset (R66). -/
theorem select_register {w mtch : TW} (h : w &&& 0x7FF00000000#43 = mtch) :
    twSize w = twSize mtch ∧ twWrite w = twWrite mtch ∧ twAddr w = twAddr mtch := by
  subst h
  have e1 : twSize 0x7FF00000000#43 = 3#2 := by decide
  have e2 : twWrite 0x7FF00000000#43 = true := by decide
  have e3 : twAddr 0x7FF00000000#43 = 0xFF#8 := by decide
  exact ⟨by rw [twSize_and, e1, and_three], by rw [twWrite_and, e2, Bool.and_true], by rw [twAddr_and, e3, and_ff]⟩

/-- The mask 0x7FF000000FF selects the OP of a CMD write too (R66). -/
theorem select_command {w mtch : TW} (h : w &&& 0x7FF000000FF#43 = mtch) :
    twSize w = twSize mtch ∧ twWrite w = twWrite mtch ∧ twAddr w = twAddr mtch ∧
      opField (twData w) = opField (twData mtch) := by
  subst h
  have e1 : twSize 0x7FF000000FF#43 = 3#2 := by decide
  have e2 : twWrite 0x7FF000000FF#43 = true := by decide
  have e3 : twAddr 0x7FF000000FF#43 = 0xFF#8 := by decide
  have e4 : opField (twData 0x7FF000000FF#43) = 0xFF#8 := by decide
  refine ⟨by rw [twSize_and, e1, and_three], by rw [twWrite_and, e2, Bool.and_true], by rw [twAddr_and, e3, and_ff], ?_⟩
  rw [twData_and, opField_and, e4, and_ff]

/-- The mask 0x70300000000 selects the size, the direction and the alignment (R66). -/
theorem select_slot {w mtch : TW} (h : w &&& 0x70300000000#43 = mtch) :
    twSize w = twSize mtch ∧ twWrite w = twWrite mtch ∧ offLow (twAddr w) = offLow (twAddr mtch) := by
  subst h
  have e1 : twSize 0x70300000000#43 = 3#2 := by decide
  have e2 : twWrite 0x70300000000#43 = true := by decide
  have e3 : offLow (twAddr 0x70300000000#43) = 3#2 := by decide
  refine ⟨by rw [twSize_and, e1, and_three], by rw [twWrite_and, e2, Bool.and_true], ?_⟩
  rw [twAddr_and, offLow_and, e3, and_three]

/-! ### The operand fields of a CMD write (R31) -/

@[simp] theorem opField_cmdData (op : Byte) (offset : Half) : opField (cmdData op offset) = op := by
  ext i hi
  simp only [opField, cmdData, BitVec.getElem_extractLsb', BitVec.getLsbD_append]
  simp [hi]

@[simp] theorem offsetField_cmdData (op : Byte) (offset : Half) : offsetField (cmdData op offset) = offset := by
  ext i hi
  simp only [offsetField, cmdData, BitVec.getElem_extractLsb', BitVec.getLsbD_append]
  have h1 : ¬ 16 + i < 8 := by omega
  have h2 : ¬ 16 + i - 8 < 8 := by omega
  have h3 : 16 + i - 8 - 8 = i := by omega
  simp [h1, h2, h3, BitVec.getLsbD_eq_getElem hi]

@[simp] theorem byteField_setWidth (b : Byte) : byteField (b.setWidth 32) = b := by
  ext i hi
  have h1 : i < 32 := by omega
  simp [byteField, hi, h1]

namespace Machine

/-! ### Wires and words (R60) -/

@[simp] theorem Request.tw_ofTW (w : TW) : (Request.ofTW w).tw = w := mkTW_fields w

@[simp] theorem Request.ofTW_tw (r : Request) : Request.ofTW r.tw = r := by
  simp [Request.ofTW, Request.tw]

end Machine

end Sys2Proof
end

