-- ==== Sys2Proof/Laws/Frame.lean ====
section
/-! SUPPORT. Small lemmas about the frame layouts. -/

namespace Sys2Proof.Machine

/-- A 16-bit field is its high byte and its low byte (R47). -/
@[simp] theorem highByte_append_lowByte (v : Half) : (highByte v ++ lowByte v : Half) = v := by
  apply BitVec.eq_of_getLsbD_eq
  intro i hi
  simp only [highByte, lowByte, BitVec.getLsbD_append, BitVec.getLsbD_extractLsb']
  by_cases h : i < 8
  · simp [h]
  · have h1 : i - 8 < 8 := by omega
    have h2 : 8 + (i - 8) = i := by omega
    simp [h, h1, h2]

/-- The first byte of a frame is its command code (R111). -/
@[simp] theorem flashFrame_code (length offset crc : Half) : (flashFrame length offset crc)[0] = 0x01#8 := rfl

@[simp] theorem resetFrame_code : resetFrame[0] = 0x02#8 := rfl

@[simp] theorem loadFrame_code : loadFrame[0] = 0x03#8 := rfl

end Sys2Proof.Machine
end

