-- ==== Sys2Proof/Laws/State.lean ====
section
/-! SUPPORT. One lemma per field per update of State, each true by rfl (or by cases on the event), so that no proof
unfolds a record update. -/

namespace Sys2Proof.Machine

/-! ### wrote -/

@[simp] theorem State.wrote_crcAcc (s : State) : (s.wrote).crcAcc = s.crcAcc := rfl
@[simp] theorem State.wrote_lenCnt (s : State) : (s.wrote).lenCnt = s.lenCnt := rfl
@[simp] theorem State.wrote_lenOvf (s : State) : (s.wrote).lenOvf = s.lenOvf := rfl
@[simp] theorem State.wrote_frame (s : State) : (s.wrote).frame = s.frame := rfl
@[simp] theorem State.wrote_frameValid (s : State) : (s.wrote).frameValid = s.frameValid := rfl
@[simp] theorem State.wrote_errIllegal (s : State) : (s.wrote).errIllegal = s.errIllegal := rfl
@[simp] theorem State.wrote_errLen (s : State) : (s.wrote).errLen = s.errLen := rfl
@[simp] theorem State.wrote_reply (s : State) : (s.wrote).reply = .wrote := rfl
@[simp] theorem State.wrote_inputs (s : State) : (s.wrote).inputs = s.inputs := rfl

/-! ### answerRead -/

@[simp] theorem State.answerRead_crcAcc (s : State) (r : Reg) : (s.answerRead r).crcAcc = s.crcAcc := rfl
@[simp] theorem State.answerRead_lenCnt (s : State) (r : Reg) : (s.answerRead r).lenCnt = s.lenCnt := rfl
@[simp] theorem State.answerRead_lenOvf (s : State) (r : Reg) : (s.answerRead r).lenOvf = s.lenOvf := rfl
@[simp] theorem State.answerRead_frame (s : State) (r : Reg) : (s.answerRead r).frame = s.frame := rfl
@[simp] theorem State.answerRead_frameValid (s : State) (r : Reg) : (s.answerRead r).frameValid = s.frameValid := rfl
@[simp] theorem State.answerRead_errIllegal (s : State) (r : Reg) : (s.answerRead r).errIllegal = s.errIllegal := rfl
@[simp] theorem State.answerRead_errLen (s : State) (r : Reg) : (s.answerRead r).errLen = s.errLen := rfl
@[simp] theorem State.answerRead_reply (s : State) (r : Reg) : (s.answerRead r).reply = .read (s.readReg r) := rfl
@[simp] theorem State.answerRead_inputs (s : State) (r : Reg) : (s.answerRead r).inputs = s.inputs := rfl

/-! ### raise, per event -/

@[simp] theorem State.raise_illegalOp_crcAcc (s : State) : (s.raise .illegalOp).crcAcc = s.crcAcc := rfl
@[simp] theorem State.raise_illegalOp_lenCnt (s : State) : (s.raise .illegalOp).lenCnt = s.lenCnt := rfl
@[simp] theorem State.raise_illegalOp_lenOvf (s : State) : (s.raise .illegalOp).lenOvf = s.lenOvf := rfl
@[simp] theorem State.raise_illegalOp_frame (s : State) : (s.raise .illegalOp).frame = s.frame := rfl
@[simp] theorem State.raise_illegalOp_frameValid (s : State) : (s.raise .illegalOp).frameValid = s.frameValid := rfl
@[simp] theorem State.raise_illegalOp_errIllegal (s : State) : (s.raise .illegalOp).errIllegal = true := rfl
@[simp] theorem State.raise_illegalOp_errLen (s : State) : (s.raise .illegalOp).errLen = s.errLen := rfl
@[simp] theorem State.raise_illegalOp_reply (s : State) : (s.raise .illegalOp).reply = .wrote := rfl
@[simp] theorem State.raise_illegalOp_inputs (s : State) : (s.raise .illegalOp).inputs = s.inputs := rfl

@[simp] theorem State.raise_lenRefused_crcAcc (s : State) : (s.raise .lenRefused).crcAcc = s.crcAcc := rfl
@[simp] theorem State.raise_lenRefused_lenCnt (s : State) : (s.raise .lenRefused).lenCnt = s.lenCnt := rfl
@[simp] theorem State.raise_lenRefused_lenOvf (s : State) : (s.raise .lenRefused).lenOvf = s.lenOvf := rfl
@[simp] theorem State.raise_lenRefused_frame (s : State) : (s.raise .lenRefused).frame = s.frame := rfl
@[simp] theorem State.raise_lenRefused_frameValid (s : State) : (s.raise .lenRefused).frameValid = false := rfl
@[simp] theorem State.raise_lenRefused_errIllegal (s : State) : (s.raise .lenRefused).errIllegal = s.errIllegal := rfl
@[simp] theorem State.raise_lenRefused_errLen (s : State) : (s.raise .lenRefused).errLen = true := rfl
@[simp] theorem State.raise_lenRefused_reply (s : State) : (s.raise .lenRefused).reply = .wrote := rfl
@[simp] theorem State.raise_lenRefused_inputs (s : State) : (s.raise .lenRefused).inputs = s.inputs := rfl

@[simp] theorem State.raise_busError_crcAcc (s : State) : (s.raise .busError).crcAcc = s.crcAcc := rfl
@[simp] theorem State.raise_busError_lenCnt (s : State) : (s.raise .busError).lenCnt = s.lenCnt := rfl
@[simp] theorem State.raise_busError_lenOvf (s : State) : (s.raise .busError).lenOvf = s.lenOvf := rfl
@[simp] theorem State.raise_busError_frame (s : State) : (s.raise .busError).frame = s.frame := rfl
@[simp] theorem State.raise_busError_frameValid (s : State) : (s.raise .busError).frameValid = s.frameValid := rfl
@[simp] theorem State.raise_busError_errIllegal (s : State) : (s.raise .busError).errIllegal = s.errIllegal := rfl
@[simp] theorem State.raise_busError_errLen (s : State) : (s.raise .busError).errLen = s.errLen := rfl
@[simp] theorem State.raise_busError_reply (s : State) : (s.raise .busError).reply = .busError := rfl
@[simp] theorem State.raise_busError_inputs (s : State) : (s.raise .busError).inputs = s.inputs := rfl

/-! ### putFrame -/

@[simp] theorem State.putFrame_crcAcc (s : State) (f : Vector Byte 8) : (s.putFrame f).crcAcc = s.crcAcc := rfl
@[simp] theorem State.putFrame_lenCnt (s : State) (f : Vector Byte 8) : (s.putFrame f).lenCnt = s.lenCnt := rfl
@[simp] theorem State.putFrame_lenOvf (s : State) (f : Vector Byte 8) : (s.putFrame f).lenOvf = s.lenOvf := rfl
@[simp] theorem State.putFrame_frame (s : State) (f : Vector Byte 8) : (s.putFrame f).frame = f := rfl
@[simp] theorem State.putFrame_frameValid (s : State) (f : Vector Byte 8) : (s.putFrame f).frameValid = true := rfl
@[simp] theorem State.putFrame_errIllegal (s : State) (f : Vector Byte 8) : (s.putFrame f).errIllegal = s.errIllegal := rfl
@[simp] theorem State.putFrame_errLen (s : State) (f : Vector Byte 8) : (s.putFrame f).errLen = s.errLen := rfl
@[simp] theorem State.putFrame_reply (s : State) (f : Vector Byte 8) : (s.putFrame f).reply = .wrote := rfl
@[simp] theorem State.putFrame_inputs (s : State) (f : Vector Byte 8) : (s.putFrame f).inputs = s.inputs := rfl

/-! ### clearErrors -/

@[simp] theorem State.clearErrors_crcAcc (s : State) (m : Word) : (s.clearErrors m).crcAcc = s.crcAcc := rfl
@[simp] theorem State.clearErrors_lenCnt (s : State) (m : Word) : (s.clearErrors m).lenCnt = s.lenCnt := rfl
@[simp] theorem State.clearErrors_lenOvf (s : State) (m : Word) : (s.clearErrors m).lenOvf = s.lenOvf := rfl
@[simp] theorem State.clearErrors_frame (s : State) (m : Word) : (s.clearErrors m).frame = s.frame := rfl
@[simp] theorem State.clearErrors_frameValid (s : State) (m : Word) : (s.clearErrors m).frameValid = s.frameValid := rfl
@[simp] theorem State.clearErrors_errIllegal (s : State) (m : Word) : (s.clearErrors m).errIllegal = (s.errIllegal && !m.getLsbD 2) := rfl
@[simp] theorem State.clearErrors_errLen (s : State) (m : Word) : (s.clearErrors m).errLen = (s.errLen && !m.getLsbD 3) := rfl
@[simp] theorem State.clearErrors_reply (s : State) (m : Word) : (s.clearErrors m).reply = s.reply := rfl
@[simp] theorem State.clearErrors_inputs (s : State) (m : Word) : (s.clearErrors m).inputs = s.inputs := rfl

/-! ### idle -/

@[simp] theorem State.idle_crcAcc (s : State) : (s.idle).crcAcc = s.crcAcc := rfl
@[simp] theorem State.idle_lenCnt (s : State) : (s.idle).lenCnt = s.lenCnt := rfl
@[simp] theorem State.idle_lenOvf (s : State) : (s.idle).lenOvf = s.lenOvf := rfl
@[simp] theorem State.idle_frame (s : State) : (s.idle).frame = s.frame := rfl
@[simp] theorem State.idle_frameValid (s : State) : (s.idle).frameValid = s.frameValid := rfl
@[simp] theorem State.idle_errIllegal (s : State) : (s.idle).errIllegal = s.errIllegal := rfl
@[simp] theorem State.idle_errLen (s : State) : (s.idle).errLen = s.errLen := rfl
@[simp] theorem State.idle_reply (s : State) : (s.idle).reply = .notReady := rfl
@[simp] theorem State.idle_inputs (s : State) : (s.idle).inputs = s.inputs := rfl

/-! ### blockReset -/

@[simp] theorem State.blockReset_crcAcc (s : State) : (s.blockReset).crcAcc = State.reset.crcAcc := rfl
@[simp] theorem State.blockReset_lenCnt (s : State) : (s.blockReset).lenCnt = State.reset.lenCnt := rfl
@[simp] theorem State.blockReset_lenOvf (s : State) : (s.blockReset).lenOvf = State.reset.lenOvf := rfl
@[simp] theorem State.blockReset_frame (s : State) : (s.blockReset).frame = State.reset.frame := rfl
@[simp] theorem State.blockReset_frameValid (s : State) : (s.blockReset).frameValid = State.reset.frameValid := rfl
@[simp] theorem State.blockReset_errIllegal (s : State) : (s.blockReset).errIllegal = State.reset.errIllegal := rfl
@[simp] theorem State.blockReset_errLen (s : State) : (s.blockReset).errLen = State.reset.errLen := rfl
@[simp] theorem State.blockReset_reply (s : State) : (s.blockReset).reply = State.reset.reply := rfl
@[simp] theorem State.blockReset_inputs (s : State) : (s.blockReset).inputs = s.inputs := rfl

/-! ### takeInput -/

@[simp] theorem State.takeInput_crcAcc (s : State) (rest : List BusInput) : (s.takeInput rest).crcAcc = s.crcAcc := rfl
@[simp] theorem State.takeInput_lenCnt (s : State) (rest : List BusInput) : (s.takeInput rest).lenCnt = s.lenCnt := rfl
@[simp] theorem State.takeInput_lenOvf (s : State) (rest : List BusInput) : (s.takeInput rest).lenOvf = s.lenOvf := rfl
@[simp] theorem State.takeInput_frame (s : State) (rest : List BusInput) : (s.takeInput rest).frame = s.frame := rfl
@[simp] theorem State.takeInput_frameValid (s : State) (rest : List BusInput) : (s.takeInput rest).frameValid = s.frameValid := rfl
@[simp] theorem State.takeInput_errIllegal (s : State) (rest : List BusInput) : (s.takeInput rest).errIllegal = s.errIllegal := rfl
@[simp] theorem State.takeInput_errLen (s : State) (rest : List BusInput) : (s.takeInput rest).errLen = s.errLen := rfl
@[simp] theorem State.takeInput_reply (s : State) (rest : List BusInput) : (s.takeInput rest).reply = s.reply := rfl
@[simp] theorem State.takeInput_inputs (s : State) (rest : List BusInput) : (s.takeInput rest).inputs = rest := rfl

/-! ### drive -/

@[simp] theorem State.drive_crcAcc (s : State) (w : TW) : (s.drive w).crcAcc = s.crcAcc := rfl
@[simp] theorem State.drive_lenCnt (s : State) (w : TW) : (s.drive w).lenCnt = s.lenCnt := rfl
@[simp] theorem State.drive_lenOvf (s : State) (w : TW) : (s.drive w).lenOvf = s.lenOvf := rfl
@[simp] theorem State.drive_frame (s : State) (w : TW) : (s.drive w).frame = s.frame := rfl
@[simp] theorem State.drive_frameValid (s : State) (w : TW) : (s.drive w).frameValid = s.frameValid := rfl
@[simp] theorem State.drive_errIllegal (s : State) (w : TW) : (s.drive w).errIllegal = s.errIllegal := rfl
@[simp] theorem State.drive_errLen (s : State) (w : TW) : (s.drive w).errLen = s.errLen := rfl
@[simp] theorem State.drive_reply (s : State) (w : TW) : (s.drive w).reply = s.reply := rfl
@[simp] theorem State.drive_inputs (s : State) (w : TW) : (s.drive w).inputs = .request (Request.ofTW w) :: s.inputs := rfl

end Sys2Proof.Machine
end

