-- ==== Sys2Proof/Laws/Ops.lean ====
section
/-! SUPPORT. What the shared operations and one step can do, said once: the lemmas the proofs cite instead of unfolding. -/

namespace Sys2Proof.Machine

/-! ### The operations that leave the block's seven elements alone -/

theorem State.SameBlock.refl (s : State) : s.SameBlock s := ⟨rfl, rfl, rfl, rfl, rfl, rfl, rfl⟩

theorem State.sameBlock_wrote (s : State) : s.SameBlock s.wrote := ⟨rfl, rfl, rfl, rfl, rfl, rfl, rfl⟩

theorem State.sameBlock_answerRead (s : State) (r : Reg) : s.SameBlock (s.answerRead r) :=
  ⟨rfl, rfl, rfl, rfl, rfl, rfl, rfl⟩

theorem State.sameBlock_busError (s : State) : s.SameBlock (s.raise .busError) := ⟨rfl, rfl, rfl, rfl, rfl, rfl, rfl⟩

theorem State.sameBlock_idle (s : State) : s.SameBlock s.idle := ⟨rfl, rfl, rfl, rfl, rfl, rfl, rfl⟩

theorem State.sameBlock_takeInput (s : State) (rest : List BusInput) : s.SameBlock (s.takeInput rest) :=
  ⟨rfl, rfl, rfl, rfl, rfl, rfl, rfl⟩

/-- A register's value depends on the block's seven elements only. -/
theorem State.SameBlock.readReg {s t : State} (h : s.SameBlock t) (r : Reg) : t.readReg r = s.readReg r := by
  cases r <;> simp [State.readReg, State.statusWord, h.crcAcc, h.lenCnt, h.lenOvf, h.frame, h.frameValid, h.errIllegal, h.errLen]

/-- Answering a read twice is answering it once. -/
@[simp] theorem State.answerRead_answerRead (s : State) (r : Reg) : (s.answerRead r).answerRead r = s.answerRead r := rfl

/-! ### What one access can do -/

/-- The next state of CRC_INIT (R87). -/
def State.crcInitialised (s : State) : State :=
  { s with crcAcc := crcStart, lenCnt := 0x0000#16, lenOvf := false, reply := .wrote }

/-- The next state of CRC_BYTE (R88). -/
def State.byteFed (s : State) (b : Byte) : State :=
  { s with
    crcAcc := crcByte s.crcAcc b
    lenOvf := lenOvfAfterByte s.lenCnt s.lenOvf
    lenCnt := s.lenCnt + 1
    reply := .wrote }

/-- Every access that gives a next state has one of these eight effects. -/
theorem exec_cases {i : Instr} {s t : State} (h : exec i s = .next t) :
    (i.isQuietWrite = true ∧ t = s.wrote) ∨
    (i.isRead = true ∧ ∃ r, t = s.answerRead r) ∨
    (i.isBusError = true ∧ t = s.raise .busError) ∨
    ((∃ op, i = .illegalCmd op) ∧ t = s.raise .illegalOp) ∨
    (∃ o, i = .encFlash o ∧ s.lenOvf = true ∧ t = s.raise .lenRefused) ∨
    (∃ f, t = s.putFrame f ∧
      ((∃ o, i = .encFlash o ∧ s.lenOvf = false ∧ f = flashFrame s.lenCnt o s.crcAcc) ∨
        (i = .encReset ∧ f = resetFrame) ∨ (i = .encLoad ∧ f = loadFrame))) ∨
    (i = .crcInit ∧ t = s.crcInitialised) ∨
    (∃ b, i = .crcByte b ∧ t = s.byteFed b) ∨
    (∃ m, i = .clrErr m ∧ t = (s.clearErrors m).wrote) := by
  cases i
  case encFlash o =>
    simp only [exec, execEncFlash] at h
    split at h
    · rename_i hov
      cases h
      exact .inr (.inr (.inr (.inr (.inl ⟨o, rfl, hov, rfl⟩))))
    · rename_i hov
      cases h
      exact .inr (.inr (.inr (.inr (.inr (.inl ⟨_, rfl, .inl ⟨o, rfl, by simpa using hov, rfl⟩⟩)))))
  case encReset => cases h; exact .inr (.inr (.inr (.inr (.inr (.inl ⟨_, rfl, .inr (.inl ⟨rfl, rfl⟩)⟩)))))
  case encLoad => cases h; exact .inr (.inr (.inr (.inr (.inr (.inl ⟨_, rfl, .inr (.inr ⟨rfl, rfl⟩)⟩)))))
  case crcInit => cases h; exact .inr (.inr (.inr (.inr (.inr (.inr (.inl ⟨rfl, rfl⟩))))))
  case crcByte b => cases h; exact .inr (.inr (.inr (.inr (.inr (.inr (.inr (.inl ⟨b, rfl, rfl⟩)))))))
  case clrErr m => cases h; exact .inr (.inr (.inr (.inr (.inr (.inr (.inr (.inr ⟨m, rfl, rfl⟩)))))))
  case illegalCmd op => cases h; exact .inr (.inr (.inr (.inl ⟨⟨op, rfl⟩, rfl⟩)))
  case nop | wrCrcIgn | wrLenIgn | wrFrameLoIgn | wrFrameHiIgn | wrRsv => cases h; exact .inl ⟨rfl, rfl⟩
  case rdCmd | rdData | rdCrc | rdLen | rdStatus | rdFrameLo | rdFrameHi | rdRsv =>
    cases h; exact .inr (.inl ⟨rfl, _, rfl⟩)
  all_goals (cases h; exact .inr (.inr (.inl ⟨rfl, rfl⟩)))

/-! ### What one step can do -/

/-- Every step that gives a next state is an edge without a request, a reset edge or an access. -/
theorem step_cases {s t : State} (h : step s = .next t) :
    (s.inputs = [] ∧ t = s.idle) ∨
    (∃ rest, s.inputs = .idle :: rest ∧ t = (s.takeInput rest).idle) ∨
    (∃ r rest, s.inputs = .request r :: rest ∧ exec (decode r.tw) (s.takeInput rest) = .next t) ∨
    (∃ p rest, s.inputs = .reset p :: rest ∧ t = (s.takeInput rest).blockReset) := by
  unfold step at h
  split at h
  · rename_i hi
    cases h
    exact .inl ⟨hi, rfl⟩
  · rename_i rest hi
    cases h
    exact .inr (.inl ⟨rest, hi, rfl⟩)
  · rename_i r rest hi
    exact .inr (.inr (.inl ⟨r, rest, hi, h⟩))
  · cases h
  · rename_i p rest hi
    cases h
    exact .inr (.inr (.inr ⟨p, rest, hi, rfl⟩))

end Sys2Proof.Machine
end

