-- ==== Sys2Proof/Laws/PerInstr.lean ====
section
/-! SUPPORT. Facts about an instruction as syntax, one lemma per constructor: its canonical word selects the row of the
opcode table that stands for it (30_encoding.md R66, R70). -/

namespace Sys2Proof.Laws.SelectsRow

/-- The canonical word of a well-formed instruction selects the instruction's row. -/
def Statement (i : Instr) : Prop := i.WellFormed → (rowOf i).selects (encode i) = true

/-- A composed word selects a row when its fields do; the row's mask and match are given by their fields. -/
theorem selects_mkTW {size ms ts : BitVec 2} {we mw tw : Bool} {off ma ta : Offset} {d md td : Word} {mask mtch : TW}
    {p : Nat} (em : mask = mkTW ms mw ma md) (et : mtch = mkTW ts tw ta td)
    (h1 : size &&& ms = ts) (h2 : (we && mw) = tw) (h3 : off &&& ma = ta) (h4 : d &&& md = td) :
    (Row.mk mtch mask p).selects (mkTW size we off d) = true := by
  subst em et
  rw [Row.selects, beq_iff_eq, select_fields]
  simpa using ⟨h1, h2, h3, h4⟩

/-- A row that tests the size, the direction and the whole offset. -/
theorem selects_register {we : Bool} {off : Offset} {d : Word} {mtch : TW} {p : Nat} (et : mtch = mkTW 2#2 we off 0#32) :
    (Row.mk mtch 0x7FF00000000#43 p).selects (mkTW 2#2 we off d) = true :=
  selects_mkTW (ms := 3#2) (mw := true) (ma := 0xFF#8) (md := 0#32) (by decide) et rfl (Bool.and_true we)
    BitVec.and_allOnes BitVec.and_zero

/-- A row that tests the size alone. -/
theorem selects_size {size : BitVec 2} {we : Bool} {off : Offset} {d : Word} {mtch : TW} {p : Nat}
    (et : mtch = mkTW size false 0#8 0#32) : (Row.mk mtch 0x60000000000#43 p).selects (mkTW size we off d) = true :=
  selects_mkTW (ms := 3#2) (mw := false) (ma := 0#8) (md := 0#32) (by decide) et BitVec.and_allOnes (Bool.and_false we)
    BitVec.and_zero BitVec.and_zero

/-- Alignment is what the mask 0x03 of an offset tests (R44, R66). -/
theorem and_low (off : Offset) : off &&& 0x03#8 = (offLow off).setWidth 8 := by
  apply BitVec.eq_of_getLsbD_eq
  intro i hi
  have h3 : (0x03#8).getLsbD i = decide (i < 2) := by
    change (3 % 2 ^ 8).testBit i = _
    rw [show 3 % 2 ^ 8 = 2 ^ 2 - 1 from rfl, Nat.testBit_two_pow_sub_one]
  rw [BitVec.getLsbD_and, h3, BitVec.getLsbD_setWidth, offLow, BitVec.getLsbD_extractLsb']
  by_cases h : i < 2 <;> simp [h, hi]

/-- A misaligned or aligned offset, as the row tests it. -/
theorem and_low_of {off : Offset} {k : BitVec 2} (h : offLow off = k) : off &&& 0x03#8 = k.setWidth 8 := by
  rw [and_low, h]

/-- A row that tests the size and the alignment. -/
theorem selects_align {we : Bool} {off : Offset} {k : BitVec 2} {mtch : TW} {p : Nat}
    (et : mtch = mkTW 2#2 false (k.setWidth 8) 0#32) (hk : offLow off = k) :
    (Row.mk mtch 0x60300000000#43 p).selects (mkTW 2#2 we off 0#32) = true :=
  selects_mkTW (ms := 3#2) (mw := false) (ma := 3#8) (md := 0#32) (by decide) et rfl (Bool.and_false we)
    (and_low_of hk) rfl

/-- The mask 0xFF of a CMD write's data tests its OP (R31, R66). -/
theorem cmdData_low (op : Byte) (offset : Half) : cmdData op offset &&& 0xFF#32 = op.setWidth 32 := by
  apply BitVec.eq_of_getLsbD_eq
  intro i hi
  have hm : (0xFF#32).getLsbD i = decide (i < 8) := by
    change (255 % 2 ^ 32).testBit i = _
    rw [show 255 % 2 ^ 32 = 2 ^ 8 - 1 from rfl, Nat.testBit_two_pow_sub_one]
  rw [BitVec.getLsbD_and, hm, cmdData, BitVec.getLsbD_append, BitVec.getLsbD_setWidth]
  by_cases h : i < 8
  · simp [h, hi]
  · have : op.getLsbD i = false := BitVec.getLsbD_of_ge op i (by omega)
    simp [h, this]

theorem nop : Statement .nop := fun _ => by decide
theorem encReset : Statement .encReset := fun _ => by decide
theorem encLoad : Statement .encLoad := fun _ => by decide
theorem crcInit : Statement .crcInit := fun _ => by decide
theorem rdCmd : Statement .rdCmd := fun _ => by decide
theorem rdData : Statement .rdData := fun _ => by decide
theorem rdCrc : Statement .rdCrc := fun _ => by decide
theorem rdLen : Statement .rdLen := fun _ => by decide
theorem rdStatus : Statement .rdStatus := fun _ => by decide
theorem rdFrameLo : Statement .rdFrameLo := fun _ => by decide
theorem rdFrameHi : Statement .rdFrameHi := fun _ => by decide
theorem wrCrcIgn : Statement .wrCrcIgn := fun _ => by decide
theorem wrLenIgn : Statement .wrLenIgn := fun _ => by decide
theorem wrFrameLoIgn : Statement .wrFrameLoIgn := fun _ => by decide
theorem wrFrameHiIgn : Statement .wrFrameHiIgn := fun _ => by decide

theorem encFlash (offset : Half) : Statement (.encFlash offset) := fun _ =>
  selects_mkTW (ms := 3#2) (mw := true) (ma := 0xFF#8) (md := 0xFF#32) (ts := 2#2) (tw := true) (ta := 0#8) (td := 1#32)
    (by decide) (by decide) rfl rfl rfl (cmdData_low 0x01#8 offset)

theorem illegalCmd (op : Byte) : Statement (.illegalCmd op) := fun _ => selects_register (by decide)

theorem crcByte (byte : Byte) : Statement (.crcByte byte) := fun _ => selects_register (by decide)

theorem clrErr (m : Word) : Statement (.clrErr m) := fun _ => selects_register (by decide)

theorem rdRsv (off : Offset) : Statement (.rdRsv off) := fun h => by
  have h0 : offLow off = 0#2 := by
    simp only [Instr.WellFormed, Instr.wf, slotReserved, Bool.and_eq_true, beq_iff_eq] at h
    exact h.1
  exact selects_mkTW (ms := 3#2) (mw := true) (ma := 3#8) (md := 0#32) (ts := 2#2) (tw := false) (ta := 0#8) (td := 0#32)
    (by decide) (by decide) rfl rfl (and_low_of h0) rfl

theorem wrRsv (off : Offset) : Statement (.wrRsv off) := fun h => by
  have h0 : offLow off = 0#2 := by
    simp only [Instr.WellFormed, Instr.wf, slotReserved, Bool.and_eq_true, beq_iff_eq] at h
    exact h.1
  exact selects_mkTW (ms := 3#2) (mw := true) (ma := 3#8) (md := 0#32) (ts := 2#2) (tw := true) (ta := 0#8) (td := 0#32)
    (by decide) (by decide) rfl rfl (and_low_of h0) rfl

theorem buserrSize8 (we : Bool) (off : Offset) : Statement (.buserrSize8 we off) := fun _ => selects_size (by decide)

theorem buserrSize16 (we : Bool) (off : Offset) : Statement (.buserrSize16 we off) := fun _ => selects_size (by decide)

theorem buserrSizeRsv (we : Bool) (off : Offset) : Statement (.buserrSizeRsv we off) := fun _ => selects_size (by decide)

theorem buserrAlign1 (we : Bool) (off : Offset) : Statement (.buserrAlign1 we off) := fun h =>
  selects_align (k := 1#2) (by decide) (by simpa [Instr.WellFormed, Instr.wf, offLow] using h)

theorem buserrAlign2 (we : Bool) (off : Offset) : Statement (.buserrAlign2 we off) := fun h =>
  selects_align (k := 2#2) (by decide) (by simpa [Instr.WellFormed, Instr.wf, offLow] using h)

theorem buserrAlign3 (we : Bool) (off : Offset) : Statement (.buserrAlign3 we off) := fun h =>
  selects_align (k := 3#2) (by decide) (by simpa [Instr.WellFormed, Instr.wf, offLow] using h)

end Sys2Proof.Laws.SelectsRow
end

