-- ==== Sys2Proof/Laws/Session.lean ====
section
/-! SUPPORT. What each host action of the session does when it goes well, and how a handshake fails. -/

namespace Sys2Proof.Machine

/-- A host action that succeeds hands its session to what follows it. -/
theorem HostM.bind_ok {α β : Type} {x : HostM α} {f : α → HostM β} {h h' : Session} {a : α} (e : x h = .ok a h') :
    (x >>= f) h = f a h' := by
  change EStateM.bind x f h = _
  rw [EStateM.bind, e]

/-- A host action that fails ends what it begins. -/
theorem HostM.bind_error {α β : Type} {x : HostM α} {f : α → HostM β} {h h' : Session} {e : HostFail}
    (he : x h = .error e h') : (x >>= f) h = .error e h' := by
  change EStateM.bind x f h = _
  rw [EStateM.bind, he]

/-- Driving an access makes it the next step, and the host's queue is as before. -/
theorem step_drive (s : State) (w : TW) : step (s.drive w) = exec (decode w) s := by
  simp only [step, State.drive, Request.tw_ofTW]
  rfl

/-- An access that completes without a bus error hands back its reply. -/
theorem blockAccess_ok {i : Instr} {h : Session} {t : State} (hd : decode (encode i) = i)
    (he : exec i h.block = .next t) (hr : t.reply.err ≠ some true) :
    blockAccess i h = .ok t.reply { h with block := t } := by
  simp only [blockAccess, step_drive, hd, he, if_neg hr]

/-- A completed read of a register hands back its value. -/
theorem blockRead_ok {i : Instr} {h : Session} {r : Reg} (hd : decode (encode i) = i)
    (he : exec i h.block = .next (h.block.answerRead r)) :
    blockRead i h = .ok (h.block.readReg r) { h with block := h.block.answerRead r } := by
  rw [blockRead, HostM.bind_ok (blockAccess_ok hd he (by simp [State.answerRead, Reply.err]))]
  rfl

/-- An Ack lets the host go on. -/
theorem requireAck_ok {stage : Stage} {h : Session} {rest : List RxEvent} (hrx : h.rx = .byte 0x01#8 :: rest) :
    requireAck stage h = .ok () { h with rx := rest } := by
  have hr : channelRead h = .ok (some 0x01#8) { h with rx := rest } := by rw [channelRead, hrx]
  rw [requireAck, HostM.bind_ok hr]
  rfl

/-- Anything else than an Ack fails, with nothing written and the block untouched (R173, R180). -/
theorem requireAck_error {stage : Stage} {h : Session} (hrx : h.rx.head? ≠ some (.byte 0x01#8)) :
    ∃ e h', requireAck stage h = .error e h' ∧ h'.tx = h.tx ∧ h'.block = h.block := by
  obtain ⟨block, phase, rx, writes, tx⟩ := h
  match rx with
  | [] => exact ⟨_, _, rfl, rfl, rfl⟩
  | .nothing :: _ => exact ⟨_, _, rfl, rfl, rfl⟩
  | .ioError :: _ => exact ⟨_, _, rfl, rfl, rfl⟩
  | .byte b :: rest =>
    have hb : b ≠ 0x01#8 := fun h => hrx (by rw [h]; rfl)
    refine ⟨.unexpectedResponse stage (some b), ⟨block, phase, rest, writes, tx⟩, ?_, rfl, rfl⟩
    have hr : channelRead ⟨block, phase, .byte b :: rest, writes, tx⟩ = .ok (some b) ⟨block, phase, rest, writes, tx⟩ := rfl
    rw [requireAck, HostM.bind_ok hr, if_neg]
    · rfl
    · simp only [classify, if_neg hb]
      split <;> intro h <;> cases h

/-- A write that the transport takes. -/
theorem channelWrite_ok {bs : List Byte} {h : Session} (hw : ∀ left, h.writes.head? ≠ some (.ioError left)) :
    channelWrite bs h = .ok () { h with tx := h.tx ++ [bs], writes := h.writes.tail } := by
  obtain ⟨block, phase, rx, writes, tx⟩ := h
  match writes with
  | [] => rfl
  | .sent :: _ => rfl
  | .ioError left :: _ => exact absurd rfl (hw left)

/-- A write on which the transport fails: only its first bytes left, and the block is untouched (R180). -/
theorem channelWrite_error {bs : List Byte} {h : Session} {left : Nat} (hw : h.writes.head? = some (.ioError left)) :
    channelWrite bs h = .error .io { h with tx := h.tx ++ [bs.take left], writes := h.writes.tail } := by
  obtain ⟨block, phase, rx, writes, tx⟩ := h
  match writes with
  | [] => cases hw
  | .sent :: _ => cases hw
  | .ioError n :: _ => cases hw; rfl

/-- Discarding input without a transport failure in it drops it (R177). -/
theorem discardPending_ok {n : Nat} {rx : List RxEvent} (h : RxEvent.ioError ∉ rx.take n) :
    discardPending n rx = .ok (rx.drop n) := by
  induction n generalizing rx with
  | zero => rfl
  | succ n ih =>
    match rx with
    | [] => rfl
    | .ioError :: _ => exact absurd (List.mem_cons_self ..) h
    | .byte _ :: _ => exact ih fun hm => h (List.mem_cons_of_mem _ hm)
    | .nothing :: _ => exact ih fun hm => h (List.mem_cons_of_mem _ hm)

/-- A transport failure in the discarded input ends the discard there (R180). -/
theorem discardPending_error {n : Nat} {before after : List RxEvent} (hb : RxEvent.ioError ∉ before)
    (hn : before.length < n) : discardPending n (before ++ .ioError :: after) = .error after := by
  induction before generalizing n with
  | nil =>
    cases n with
    | zero => cases hn
    | succ n => rfl
  | cons e before ih =>
    cases n with
    | zero => cases hn
    | succ n =>
      have hr := ih (n := n) (fun hm => hb (List.mem_cons_of_mem _ hm)) (Nat.lt_of_succ_lt_succ hn)
      cases e with
      | ioError => exact absurd (List.mem_cons_self ..) hb
      | byte _ => exact hr
      | nothing => exact hr

/-- The handshake with a device that acknowledges (R172). -/
theorem handshake_ok {h : Session} {rest : List RxEvent} (hrx : h.rx = .byte 0x01#8 :: rest)
    (hw : ∀ left, h.writes.head? ≠ some (.ioError left)) :
    handshake h = .ok () { h with rx := rest, tx := h.tx ++ [helloFrame], writes := h.writes.tail } := by
  rw [handshake, HostM.bind_ok (channelWrite_ok hw)]
  exact requireAck_ok hrx

/-- The handshake without an Ack, or whose write fails: nothing but the Hello frame was written (R172, R174, R180). -/
theorem handshake_error {h : Session}
    (hf : h.rx.head? ≠ some (.byte 0x01#8) ∨ ∃ left, h.writes.head? = some (.ioError left)) :
    ∃ e h', handshake h = .error e h' ∧ h.OnlyGreeted h' := by
  by_cases hw : ∃ left, h.writes.head? = some (.ioError left)
  · obtain ⟨left, hl⟩ := hw
    refine ⟨.io, _, HostM.bind_error (channelWrite_error hl), ⟨_, List.take_prefix left helloFrame, rfl, ?_⟩, rfl⟩
    exact fun hn => absurd hl (hn left)
  · have hn : ∀ left, h.writes.head? ≠ some (.ioError left) := fun left hl => hw ⟨left, hl⟩
    obtain ⟨e, h', he, htx, hb⟩ := requireAck_error (stage := .hello)
      (h := { h with tx := h.tx ++ [helloFrame], writes := h.writes.tail }) (hf.resolve_right hw)
    refine ⟨e, h', ?_, ⟨helloFrame, List.prefix_refl _, htx, fun _ => rfl⟩, hb⟩
    rw [handshake, HostM.bind_ok (channelWrite_ok hn)]
    exact he

end Sys2Proof.Machine
end

