-- ==== Sys2Proof/Machine/AsmText.lean ====
section
/-! DEFINITION. The text form of an assembler program (30_encoding.md R70, R71): one operation per line, `;` starts a
comment, numbers are hex (`0x..`) or decimal. What R70 leaves open about spacing and quoting is log 12. -/

namespace Sys2Proof.Machine

/-- Space, tab or carriage return. -/
def isBlank (c : Char) : Bool := c == ' ' || c == '\t' || c == '\r'

/-- A text without the blanks at its two ends. -/
def trimText (cs : List Char) : List Char := ((cs.dropWhile isBlank).reverse.dropWhile isBlank).reverse

/-- A line up to its comment or its `=> v` note; inside quotes both are plain text. -/
def stripNote : Bool → List Char → List Char
  | _, [] => []
  | quoted, '"' :: cs => '"' :: stripNote (!quoted) cs
  | false, ';' :: _ => []
  | false, '=' :: '>' :: _ => []
  | quoted, c :: cs => c :: stripNote quoted cs

/-- The value of a digit. -/
def digitValue (c : Char) : Nat :=
  if '0' ≤ c ∧ c ≤ '9' then c.toNat - '0'.toNat
  else if 'a' ≤ c ∧ c ≤ 'f' then c.toNat - 'a'.toNat + 10
  else if 'A' ≤ c ∧ c ≤ 'F' then c.toNat - 'A'.toNat + 10
  else 16

/-- A run of digits in a base, after `acc`. -/
def readDigits (base : Nat) : Nat → List Char → Option Nat
  | acc, [] => some acc
  | acc, c :: cs => if digitValue c < base then readDigits base (acc * base + digitValue c) cs else none

/-- A hex or decimal number. -/
def readNumber : List Char → Option Nat
  | [] => none
  | ['0', 'x'] => none
  | '0' :: 'x' :: cs => readDigits 16 0 cs
  | cs => readDigits 10 0 cs

/-- Numbers parted by commas; no text, no numbers. -/
def readOperands (cs : List Char) : Option (List Nat) :=
  if cs.isEmpty then some [] else (cs.splitOn ',').mapM fun o => readNumber (trimText o)

/-- The forms without an operand. -/
def plainForms : List (List Char × AsmLine) :=
  [("NOP".toList, .nop), ("CRC_INIT".toList, .crcInit), ("ENC_RESET".toList, .encReset), ("ENC_LOAD".toList, .encLoad),
    ("RD_CMD".toList, .rdCmd), ("RD_DATA".toList, .rdData), ("RD_CRC".toList, .rdCrc), ("RD_LEN".toList, .rdLen)] ++
  [("RD_STATUS".toList, .rdStatus), ("RD_FRAME_LO".toList, .rdFrameLo), ("RD_FRAME_HI".toList, .rdFrameHi),
    ("CLR_ERR_ALL".toList, .clrErrAll), ("FRAME_READ".toList, .frameRead)]

/-- A form with one operand, by its mnemonic. -/
def unaryForm (m : List Char) (a : Nat) : Option AsmLine :=
  if m = "CRC_BYTE".toList then some (.crcByte a)
  else if m = "ENC_FLASH".toList then some (.encFlash a)
  else if m = "CLR_ERR".toList then some (.clrErr a)
  else if m = "RD".toList then some (.rd a)
  else if m = "RD.B".toList then some (.rdB a)
  else if m = "RD.H".toList then some (.rdH a)
  else none

/-- A form with two operands, by its mnemonic. -/
def binaryForm (m : List Char) (a b : Nat) : Option AsmLine :=
  if m = "WR".toList then some (.wr a b)
  else if m = "WR.B".toList then some (.wrB a b)
  else if m = "WR.H".toList then some (.wrH a b)
  else none

/-- A form with a list of operands, by its mnemonic. -/
def listForm (m : List Char) : List Nat → Option AsmLine
  | a :: bs =>
    if m = "CRC_BYTES".toList then some (.crcBytes (a :: bs))
    else if m = "PAGE".toList then (if bs.isEmpty then none else some (.page a bs))
    else none
  | [] => none

/-- A form whose operands are numbers. -/
def numericForm (m : List Char) (ops : List Nat) : Option AsmLine :=
  (listForm m ops).or
    (match ops with
    | [] => (plainForms.find? fun p => p.1 = m).map Prod.snd
    | [a] => unaryForm m a
    | [a, b] => binaryForm m a b
    | _ => none)

/-- A text in double quotes, as its characters' codes. -/
def readQuoted : List Char → Option (List Nat)
  | '"' :: cs =>
    match cs.reverse with
    | '"' :: body => if body.contains '"' then none else some (body.reverse.map Char.toNat)
    | _ => none
  | _ => none

/-- An operation, its text trimmed; `fuel` bounds the nesting of REPEAT. R71 does not say what `insn` may be in `REPEAT n,
insn`: here it is any one line, a pseudo-instruction or another REPEAT too (DESIGN CHOICE, log 12). -/
def readInsn : Nat → List Char → Option AsmLine
  | 0, _ => none
  | fuel + 1, cs =>
    let m := cs.takeWhile fun c => !isBlank c
    let rest := trimText (cs.dropWhile fun c => !isBlank c)
    if m = "REPEAT".toList then
      match rest.dropWhile (· != ',') with
      | ',' :: insn =>
        match readNumber (trimText (rest.takeWhile (· != ','))), readInsn fuel (trimText insn) with
        | some n, some line => some (.rept n line)
        | _, _ => none
      | _ => none
    else if m = "CRC_STR".toList then (readQuoted rest).map .crcStr
    else (readOperands rest).bind (numericForm m)

/-- The lines of a program, blank lines left out; none if a line is no form of R70 or R71. -/
def readProgram (text : List Char) : Option (List AsmLine) :=
  (((text.splitOn '\n').map fun l => trimText (stripNote false l)).filter fun l => !l.isEmpty).mapM
    fun l => readInsn l.length l

/-- The transaction words of a program text (R70, R71). -/
def assembleText (text : String) : Except AsmError (List TW) :=
  match readProgram text.toList with
  | some ls => assembleAll ls
  | none => .error .badLine

end Sys2Proof.Machine
end

