-- ==== Sys2Proof/Machine/Timing.lean ====
section
/-! DEFINITION. The lower bounds of 70_reset_and_hazards.md R199, in cycles from req to ready. No step reads them: the
machine models no time (93_implementation_defined.md section 1; log 3). -/

namespace Sys2Proof.Machine

/-- CYCLES_PER_BYTE (R6, R199): eight rounds and the cycle that takes the access for SERIAL, else one. -/
def cyclesPerByte : CrcImpl → Nat
  | .serial => 9
  | .table => 1
  | .parallel => 1

/-- The fewest cycles an access takes (R199). -/
def minCycles (impl : CrcImpl) : Instr → Nat
  | .crcByte _ => cyclesPerByte impl
  | .nop | .encFlash _ | .encReset | .encLoad | .crcInit | .illegalCmd _ | .clrErr _ => 1
  | .rdCmd | .rdData | .rdCrc | .rdLen | .rdStatus | .rdFrameLo | .rdFrameHi | .rdRsv _ => 1
  | .wrCrcIgn | .wrLenIgn | .wrFrameLoIgn | .wrFrameHiIgn | .wrRsv _ => 1
  | .buserrSize8 _ _ | .buserrSize16 _ _ | .buserrSizeRsv _ _ => 1
  | .buserrAlign1 _ _ | .buserrAlign2 _ _ | .buserrAlign3 _ _ => 1

/-- The bound for this block's own CRC_IMPL. -/
def blockMinCycles (i : Instr) : Nat := minCycles Config.crcImpl i

end Sys2Proof.Machine
end

