-- ==== Sys2Proof/Tests/Slice0.lean ====
section
/-! SUPPORT. Tests whose expected values come from the spec (95_test_vectors.md, the rules' own examples, or the encoding
tables written out bit by bit), the smoke test of WellFormed, and one witness for the hypotheses of each statement. -/

namespace Sys2Proof.Tests

open Sys2Proof.Machine

/-! ### WellFormed refuses ill-formed terms (R65, R44, R146) -/

theorem test_wf_refuses_named_ops : namedOps.all (fun op => (Instr.illegalCmd op).wf) = false ∧
    namedOps.any (fun op => (Instr.illegalCmd op).wf) = false := by decide

theorem test_wf_refuses_mapped_or_misaligned_slots :
    (Instr.rdRsv 0x18#8).wf = false ∧ (Instr.rdRsv 0x1D#8).wf = false ∧
    (Instr.wrRsv 0x00#8).wf = false ∧ (Instr.wrRsv 0xFD#8).wf = false ∧
    (Instr.rdRsv 0x1C#8).wf = true ∧ (Instr.wrRsv 0xFC#8).wf = true := by decide

theorem test_wf_refuses_wrong_alignment :
    (Instr.buserrAlign1 true 0x00#8).wf = false ∧ (Instr.buserrAlign2 false 0x01#8).wf = false ∧
    (Instr.buserrAlign3 true 0x02#8).wf = false ∧ (Instr.buserrAlign3 true 0xFF#8).wf = true := by decide

/-! ### Every constructor's decoding, from words written out field by field: SIZE W ADDR DATA (R60, R66; V-CT-2) -/

theorem test_decode_commands :
    decode 0b10_1_00000000_0000000000000000_11111111_00000000#43 = .nop ∧
    decode 0b10_1_00000000_0000010000000000_00000000_00000001#43 = .encFlash 0x0400#16 ∧
    decode 0b10_1_00000000_0000000000000000_00000000_00000010#43 = .encReset ∧
    decode 0b10_1_00000000_1111111111111111_00000000_00000011#43 = .encLoad ∧
    decode 0b10_1_00000000_0000000000000000_00000000_00010000#43 = .crcInit ∧
    decode 0b10_1_00000000_0000000000000000_00000000_00010001#43 = .illegalCmd 0x11#8 ∧
    decode 0b10_1_00000000_0000000000000000_00000000_00000100#43 = .illegalCmd 0x04#8 := by decide

theorem test_decode_data_and_status_writes :
    decode 0b10_1_00000100_0000000000000000_00000000_00110001#43 = .crcByte 0x31#8 ∧
    decode 0b10_1_00000100_1111111111111111_11111111_00110001#43 = .crcByte 0x31#8 ∧
    decode 0b10_1_00010000_0000000000000000_00000000_00001000#43 = .clrErr 0x00000008#32 := by decide

theorem test_decode_reads :
    decode 0b10_0_00000000_00000000000000000000000000000000#43 = .rdCmd ∧
    decode 0b10_0_00000100_00000000000000000000000000000000#43 = .rdData ∧
    decode 0b10_0_00001000_00000000000000000000000000000000#43 = .rdCrc ∧
    decode 0b10_0_00001100_00000000000000000000000000000000#43 = .rdLen ∧
    decode 0b10_0_00010000_00000000000000000000000000000000#43 = .rdStatus ∧
    decode 0b10_0_00010100_00000000000000000000000000000000#43 = .rdFrameLo ∧
    decode 0b10_0_00011000_00000000000000000000000000000001#43 = .rdFrameHi := by decide

theorem test_decode_ignored_writes_and_slots :
    decode 0b10_1_00001000_00000000000000000001001000110100#43 = .wrCrcIgn ∧
    decode 0b10_1_00001100_00000000000000000000000000000000#43 = .wrLenIgn ∧
    decode 0b10_1_00010100_00000000000000000000000000000000#43 = .wrFrameLoIgn ∧
    decode 0b10_1_00011000_00000000000000000000000000000000#43 = .wrFrameHiIgn ∧
    decode 0b10_0_00011100_00000000000000000000000000000000#43 = .rdRsv 0x1C#8 ∧
    decode 0b10_1_11111100_00000000000000000000000000000001#43 = .wrRsv 0xFC#8 := by decide

theorem test_decode_bus_errors :
    decode 0b00_0_00001000_00000000000000000000000000000000#43 = .buserrSize8 false 0x08#8 ∧
    decode 0b01_0_00001000_00000000000000000000000000000000#43 = .buserrSize16 false 0x08#8 ∧
    decode 0b11_0_00001000_00000000000000000000000000000000#43 = .buserrSizeRsv false 0x08#8 ∧
    decode 0b10_1_00000001_00000000000000000000000000000001#43 = .buserrAlign1 true 0x01#8 ∧
    decode 0b10_0_00001010_00000000000000000000000000000000#43 = .buserrAlign2 false 0x0A#8 ∧
    decode 0b10_0_11111111_00000000000000000000000000000000#43 = .buserrAlign3 false 0xFF#8 ∧
    decode 0b00_1_00000001_00000000000000000000000000000000#43 = .buserrSize8 true 0x01#8 := by decide

/-- A number of 44 bits is no transaction word (R69). -/
theorem test_decode_rejects_wide : decodeTableWord 48 (2 ^ 43) = none ∧ (decodeTableWord 48 0x5FC00000001).isSome = true := by
  decide

/-! ### The CRC function (V-CRC-1 to V-CRC-5, V-SRC-2) -/

/-- V-CRC-3: the round trace of crc_byte(0xFFFF, 0x31). -/
theorem test_crc_round_trace :
    (List.range 9).map (fun n => (crcRounds n 0xCEFF#16).toNat) =
      [0xCEFF, 0x8DDF, 0x0B9F, 0x173E, 0x2E7C, 0x5CF8, 0xB9F0, 0x63C1, 0xC782] := by decide +kernel

/-- V-SRC-2 with C1: the check value, and V-CRC-1 rows. -/
theorem test_crc16_vectors :
    crc16 [0x31#8, 0x32#8, 0x33#8, 0x34#8, 0x35#8, 0x36#8, 0x37#8, 0x38#8, 0x39#8] = 0x29B1#16 ∧
    crc16 [0x00#8] = 0xE1F0#16 ∧ crc16 [0xFF#8] = 0xFF00#16 ∧ crc16 [0x01#8] = 0xF1D1#16 ∧ crc16 [0x80#8] = 0x7078#16 ∧
    crc16 [0xFF#8, 0xFF#8] = 0x0000#16 ∧ crc16 [0x41#8, 0x00#8, 0xFF#8] = 0xF8F1#16 ∧
    crc16 [0x48#8, 0x69#8] = 0x64E5#16 := by decide +kernel

/-- V-CRC-5: in header order, low byte first, the residue is not zero. -/
theorem test_crc_residue_low_byte_first : crc16 [0x41#8, 0x15#8, 0xB9#8] = 0x2C75#16 := by decide +kernel

/-- V-CRC-2 and V-CRC-3 by the other forms (R83 to R86). -/
theorem test_crc_forms :
    crcByteTable 0xFFFF#16 0x31#8 = 0xC782#16 ∧ crcByteParallel 0xFFFF#16 0x31#8 = 0xC782#16 ∧
    crcByteSerial 0xFFFF#16 0x31#8 = 0xC782#16 ∧ crcByteMaskedLate 0xFFFF#16 0x31#8 = 0xC782#16 := by decide +kernel

/-- Rows 0x00 to 0x38 of the table printed in 40_crc.md R84. -/
def printedTable0 : List Nat :=
  [0x0000, 0x1021, 0x2042, 0x3063, 0x4084, 0x50A5, 0x60C6, 0x70E7,
    0x8108, 0x9129, 0xA14A, 0xB16B, 0xC18C, 0xD1AD, 0xE1CE, 0xF1EF,
    0x1231, 0x0210, 0x3273, 0x2252, 0x52B5, 0x4294, 0x72F7, 0x62D6,
    0x9339, 0x8318, 0xB37B, 0xA35A, 0xD3BD, 0xC39C, 0xF3FF, 0xE3DE,
    0x2462, 0x3443, 0x0420, 0x1401, 0x64E6, 0x74C7, 0x44A4, 0x5485,
    0xA56A, 0xB54B, 0x8528, 0x9509, 0xE5EE, 0xF5CF, 0xC5AC, 0xD58D,
    0x3653, 0x2672, 0x1611, 0x0630, 0x76D7, 0x66F6, 0x5695, 0x46B4,
    0xB75B, 0xA77A, 0x9719, 0x8738, 0xF7DF, 0xE7FE, 0xD79D, 0xC7BC]

/-- The computed table is the printed one (R84). -/
theorem test_crc_table_part0 :
    (List.range 64).map (fun k => (crcEntry (BitVec.ofNat 8 (0 + k))).toNat) = printedTable0 := by decide +kernel

/-- Rows 0x40 to 0x78 of the table printed in 40_crc.md R84. -/
def printedTable1 : List Nat :=
  [0x48C4, 0x58E5, 0x6886, 0x78A7, 0x0840, 0x1861, 0x2802, 0x3823,
    0xC9CC, 0xD9ED, 0xE98E, 0xF9AF, 0x8948, 0x9969, 0xA90A, 0xB92B,
    0x5AF5, 0x4AD4, 0x7AB7, 0x6A96, 0x1A71, 0x0A50, 0x3A33, 0x2A12,
    0xDBFD, 0xCBDC, 0xFBBF, 0xEB9E, 0x9B79, 0x8B58, 0xBB3B, 0xAB1A,
    0x6CA6, 0x7C87, 0x4CE4, 0x5CC5, 0x2C22, 0x3C03, 0x0C60, 0x1C41,
    0xEDAE, 0xFD8F, 0xCDEC, 0xDDCD, 0xAD2A, 0xBD0B, 0x8D68, 0x9D49,
    0x7E97, 0x6EB6, 0x5ED5, 0x4EF4, 0x3E13, 0x2E32, 0x1E51, 0x0E70,
    0xFF9F, 0xEFBE, 0xDFDD, 0xCFFC, 0xBF1B, 0xAF3A, 0x9F59, 0x8F78]

/-- The computed table is the printed one (R84). -/
theorem test_crc_table_part1 :
    (List.range 64).map (fun k => (crcEntry (BitVec.ofNat 8 (64 + k))).toNat) = printedTable1 := by decide +kernel

/-- Rows 0x80 to 0xB8 of the table printed in 40_crc.md R84. -/
def printedTable2 : List Nat :=
  [0x9188, 0x81A9, 0xB1CA, 0xA1EB, 0xD10C, 0xC12D, 0xF14E, 0xE16F,
    0x1080, 0x00A1, 0x30C2, 0x20E3, 0x5004, 0x4025, 0x7046, 0x6067,
    0x83B9, 0x9398, 0xA3FB, 0xB3DA, 0xC33D, 0xD31C, 0xE37F, 0xF35E,
    0x02B1, 0x1290, 0x22F3, 0x32D2, 0x4235, 0x5214, 0x6277, 0x7256,
    0xB5EA, 0xA5CB, 0x95A8, 0x8589, 0xF56E, 0xE54F, 0xD52C, 0xC50D,
    0x34E2, 0x24C3, 0x14A0, 0x0481, 0x7466, 0x6447, 0x5424, 0x4405,
    0xA7DB, 0xB7FA, 0x8799, 0x97B8, 0xE75F, 0xF77E, 0xC71D, 0xD73C,
    0x26D3, 0x36F2, 0x0691, 0x16B0, 0x6657, 0x7676, 0x4615, 0x5634]

/-- The computed table is the printed one (R84). -/
theorem test_crc_table_part2 :
    (List.range 64).map (fun k => (crcEntry (BitVec.ofNat 8 (128 + k))).toNat) = printedTable2 := by decide +kernel

/-- Rows 0xC0 to 0xF8 of the table printed in 40_crc.md R84. -/
def printedTable3 : List Nat :=
  [0xD94C, 0xC96D, 0xF90E, 0xE92F, 0x99C8, 0x89E9, 0xB98A, 0xA9AB,
    0x5844, 0x4865, 0x7806, 0x6827, 0x18C0, 0x08E1, 0x3882, 0x28A3,
    0xCB7D, 0xDB5C, 0xEB3F, 0xFB1E, 0x8BF9, 0x9BD8, 0xABBB, 0xBB9A,
    0x4A75, 0x5A54, 0x6A37, 0x7A16, 0x0AF1, 0x1AD0, 0x2AB3, 0x3A92,
    0xFD2E, 0xED0F, 0xDD6C, 0xCD4D, 0xBDAA, 0xAD8B, 0x9DE8, 0x8DC9,
    0x7C26, 0x6C07, 0x5C64, 0x4C45, 0x3CA2, 0x2C83, 0x1CE0, 0x0CC1,
    0xEF1F, 0xFF3E, 0xCF5D, 0xDF7C, 0xAF9B, 0xBFBA, 0x8FD9, 0x9FF8,
    0x6E17, 0x7E36, 0x4E55, 0x5E74, 0x2E93, 0x3EB2, 0x0ED1, 0x1EF0]

/-- The computed table is the printed one (R84). -/
theorem test_crc_table_part3 :
    (List.range 64).map (fun k => (crcEntry (BitVec.ofNat 8 (192 + k))).toNat) = printedTable3 := by decide +kernel

/-! ### Operations, one step each -/

/-- The state after one access, if there is one. -/
def after (i : Instr) (s : State) : Option State :=
  match exec i s with
  | .next t => some t
  | .fault _ | .refused _ => none

/-- The value a read returns, if it is a completed read. -/
def readValue (i : Instr) (s : State) : Option Word := (after i s).bind fun t => t.reply.rdata

/-- The state P6 of 95_test_vectors.md starts from. -/
def sharedState : State :=
  { State.reset with
    crcAcc := 0x1234#16, lenCnt := 0x0010#16, frameValid := true, errIllegal := true
    frame := #v[0x03#8, 0x00#8, 0x00#8, 0x00#8, 0x00#8, 0x00#8, 0x00#8, 0x00#8] }

/-- A state with STATUS = 0x0000000E (V-CT-1). -/
def statusE : State := { State.reset with lenOvf := true, errIllegal := true, errLen := true }

/-- V-CRC-4: CRC_INIT after nine bytes, and with LEN_OVF, ERR_LEN set. -/
theorem test_crcInit :
    (after .crcInit { State.reset with crcAcc := 0x29B1#16, lenCnt := 9#16 }).map (fun t => (t.crcAcc, t.lenCnt, t.lenOvf)) =
      some (0xFFFF#16, 0#16, false) ∧
    (after .crcInit { State.reset with lenOvf := true, errLen := true }).map (fun t => (t.lenOvf, t.errLen)) =
      some (false, true) := by decide +kernel

/-- V-CRC-4: a byte with reserved bits above it, through the decoder. -/
theorem test_crcByte_ignores_high_bits :
    (after (decode 0x50412345678#43) State.reset).map (fun t => (t.crcAcc, t.lenCnt)) = some (0x1E6F#16, 1#16) := by
  decide +kernel

/-- V-CRC-4: byte 65536 wraps LEN_CNT and sets LEN_OVF; later bytes leave it set. -/
theorem test_crcByte_overflow :
    (after (.crcByte 0x5A#8) { State.reset with lenCnt := 0xFFFF#16 }).map (fun t => (t.lenCnt, t.lenOvf)) = some (0#16, true) ∧
    (after (.crcByte 0x5A#8) { State.reset with lenCnt := 5#16, lenOvf := true }).map (fun t => (t.lenCnt, t.lenOvf)) =
      some (6#16, true) := by decide +kernel

/-- V-FR-3: ENC_FLASH right after reset, and V-FR-1 row 6. -/
theorem test_encFlash_accepted :
    (after (.encFlash 0#16) State.reset).map (fun t => (t.frame.toList, t.frameValid)) =
      some ([0x01#8, 0x00#8, 0x00#8, 0x00#8, 0x00#8, 0x00#8, 0xFF#8, 0xFF#8], true) ∧
    (after (decode 0x500ABCDFF01#43) { State.reset with lenCnt := 0x1234#16, crcAcc := 0x5678#16 }).map
        (fun t => (t.readReg .frameLo, t.readReg .frameHi)) =
      some (0x12340001#32, 0x5678ABCD#32) := by decide +kernel

/-- V-FR-3: a refused ENC_FLASH keeps FRAME, clears FRAME_VALID, sets ERR_LEN. -/
theorem test_encFlash_refused :
    (after (.encFlash 0x0800#16) { sharedState with lenOvf := true, errIllegal := false }).map
        (fun t => (t.frame == sharedState.frame, t.frameValid, t.errLen, t.statusWord)) =
      some (true, false, true, 0x0000000A#32) := by decide +kernel

/-- V-FR-2, V-FR-3: ENC_RESET and ENC_LOAD, which LEN_OVF does not refuse. -/
theorem test_encReset_encLoad :
    (after .encReset statusE).map (fun t => (t.readReg .frameLo, t.readReg .frameHi, t.frameValid)) =
      some (0x00000002#32, 0x00000000#32, true) ∧
    (after .encLoad statusE).map (fun t => (t.readReg .frameLo, t.readReg .frameHi, t.frameValid)) =
      some (0x00000003#32, 0x00000000#32, true) := by decide +kernel

/-- P6: the reads of a shared state, each by its register. -/
theorem test_reads :
    readValue .rdStatus sharedState = some 0x00000005#32 ∧ readValue .rdCrc sharedState = some 0x00001234#32 ∧
    readValue .rdLen sharedState = some 0x00000010#32 ∧ readValue .rdCmd sharedState = some 0#32 ∧
    readValue .rdData sharedState = some 0#32 ∧ readValue (.rdRsv 0x40#8) sharedState = some 0#32 := by decide +kernel

/-- V-FR-1 row 2: the two frame words differ, and each read takes its own. -/
theorem test_frame_reads :
    readValue .rdFrameLo { State.reset with frame := #v[0x01#8, 0x00#8, 0x09#8, 0x00#8, 0x00#8, 0x04#8, 0xB1#8, 0x29#8] } =
      some 0x00090001#32 ∧
    readValue .rdFrameHi { State.reset with frame := #v[0x01#8, 0x00#8, 0x09#8, 0x00#8, 0x00#8, 0x04#8, 0xB1#8, 0x29#8] } =
      some 0x29B10400#32 := by decide +kernel

/-- V-CT-1: the rows of CLR_ERR. -/
theorem test_clrErr :
    (after (.clrErr 0x00000004#32) statusE).map State.statusWord = some 0x0000000A#32 ∧
    (after (.clrErr 0x00000008#32) statusE).map State.statusWord = some 0x00000006#32 ∧
    (after (.clrErr 0xFFFFFFFF#32) statusE).map State.statusWord = some 0x00000002#32 ∧
    (after (.clrErr 0x00000001#32) { State.reset with frameValid := true }).map State.statusWord = some 0x00000001#32 := by
  decide +kernel

/-- V-CT-1: an illegal OP from reset sets bit 2, and it stays set. -/
theorem test_illegalCmd :
    (after (.illegalCmd 0x11#8) State.reset).map State.statusWord = some 0x00000004#32 ∧
    (after (.illegalCmd 0xFF#8) { State.reset with errIllegal := true }).map State.statusWord = some 0x00000004#32 := by
  decide +kernel

/-- R140, R144, R146: the quiet writes leave the register map as it was. -/
theorem test_quiet_writes :
    ([.nop, .wrCrcIgn, .wrLenIgn, .wrFrameLoIgn, .wrFrameHiIgn, .wrRsv 0x1C#8] : List Instr).all
      (fun i => after i sharedState == some { sharedState with reply := .wrote }) = true := by decide +kernel

/-- R162, P3: `WR.B 0x04, 0x55` feeds no byte and gets err = 1, rdata = 0. -/
theorem test_bus_error :
    (after (decode 0x10400000055#43) sharedState).map (fun t => (t.lenCnt, t.reply.ready, t.reply.err, t.reply.rdata)) =
      some (0x0010#16, true, some true, some 0#32) := by decide +kernel

/-! ### Steps -/

/-- The state after one step, if there is one. -/
def stepped (s : State) : Option State :=
  match step s with
  | .next t => some t
  | .fault _ | .refused _ => none

/-- P6: ENC_FLASH 0xBEEF as the next step of a shared state. -/
theorem test_step_runs_encFlash :
    (stepped (sharedState.withFetchWord 48 0x500BEEF0001)).map (fun t => (t.frame.toList, t.inputs)) =
      some ([0x01#8, 0x00#8, 0x10#8, 0x00#8, 0xEF#8, 0xBE#8, 0x34#8, 0x12#8], []) := by decide +kernel

/-- R190, R191: a reset edge with a DATA write pending. -/
theorem test_step_reset :
    stepped { sharedState with inputs := [.reset (some (Request.ofTW 0x50400000041#43)), .idle] } =
      some { State.reset with inputs := [.idle] } := by decide +kernel

/-- R199: CYCLES_PER_BYTE. -/
theorem test_timing : minCycles .serial (.crcByte 0#8) = 9 ∧ minCycles .table (.crcByte 0#8) = 1 ∧ minCycles .serial .nop = 1 := by
  decide

/-! ### The assembler and the host -/

/-- R70, R71: forms of a text, with a comment, a note and a repeated line. -/
theorem test_assemble_text :
    (assembleText "CRC_INIT ; start\nREPEAT 2, CRC_BYTE 0x31\nENC_FLASH 1024\nRD_STATUS => 0x00000001\nWR.B 0x04, 0x55").toOption =
      some [0x50000000010#43, 0x50400000031#43, 0x50400000031#43, 0x50004000001#43, 0x41000000000#43, 0x10400000055#43] := by
  decide +kernel

/-- R70: an operand out of range is refused, a line of no form too. -/
theorem test_assemble_refuses :
    assemble (.encFlash 65536) = .error .outOfRange ∧ assemble (.rept 2 (.crcByte 256)) = .error .outOfRange ∧
    readProgram "FOO 1".toList = none := ⟨rfl, rfl, by decide +kernel⟩

/-- V-SRC-6: the banner "Ready" at the end of a stream, and a stream ending "Read". -/
theorem test_readiness :
    scanBanner ((readyBanner ++ [0x00#8]).map .byte) [] none = .found [.byte 0x00#8] ∧
    scanBanner ((readyBanner.take 4).map .byte) [] none = .waiting := by decide +kernel

/-- R177: a bounded wait on silence gives up. -/
theorem test_readiness_bound :
    scanBanner [] [] (some 3) = .gaveUp [] ∧ scanBanner ((readyBanner.take 4).map .byte) [] (some 4) = .gaveUp [] ∧
    scanBanner (readyBanner.map .byte) [] (some 5) = .found [] := by decide +kernel

/-- R177, R180: pending input is discarded, and a transport failure in it ends the wait before anything is written. -/
theorem test_discard :
    (match waitForReady 2 none (Session.start ([.byte 0x52#8, .nothing] ++ readyBanner.map .byte ++ [.byte 0x01#8])) with
      | .ok _ h => h.tx == [helloFrame] && h.rx.isEmpty
      | .error _ _ => false) = true ∧
    (match waitForReady 2 none (Session.start ([.byte 0x52#8, .ioError] ++ readyBanner.map .byte ++ [.byte 0x01#8])) with
      | .error .io h => h.tx.isEmpty
      | _ => false) = true := by decide +kernel

/-- R180: a failed write ends the handshake, a success exits with 0, a waiting host has not exited. -/
theorem test_transport_and_exit :
    (match handshake { Session.start [.byte 0x01#8] with writes := [.ioError 2] } with
      | .error .io h => h.tx == [[0xAA#8, 0x03#8]]
      | _ => false) = true ∧
    exitStatus (.ok () (Session.start [])) = some 0 ∧ exitStatus (.error .stillWaiting (Session.start [])) = none ∧
    exitStatus (.error .io (Session.start [])) ≠ some 0 := by
  refine ⟨by decide +kernel, rfl, rfl, ?_⟩
  intro h
  cases h

/-- V-SRC-4, R179: page offsets and lengths of a 2500-byte image, and the wrap of page 64. -/
theorem test_pages :
    (List.range 4).map pageOffset = [0#16, 1024#16, 2048#16, 3072#16] ∧ pageOffset 64 = 0#16 ∧
    pageCount (List.replicate 2500 0x00#8) = 3 ∧ (pageAt (List.replicate 2500 0x00#8) 2).length = 452 := by
  refine ⟨by decide, by decide, ?_, ?_⟩
  · rw [pageCount, List.length_replicate]
    rfl
  · rw [pageAt, List.length_take, List.length_drop, List.length_replicate]
    rfl

/-! ### Witnesses: the hypotheses of each statement can be met together -/

theorem witness_DecodeOfEncodeIsIdentity :
    (Instr.illegalCmd 0xFF#8).WellFormed ∧ (Instr.rdRsv 0xFC#8).WellFormed ∧ (Instr.buserrAlign3 true 0x03#8).WellFormed := by
  decide

/-- A NOP word selects two rows, of different priority. -/
theorem witness_DecodeTakesTheLowestPriorityRow :
    rowOf (.illegalCmd 4#8) ∈ opTable ∧ (rowOf (.illegalCmd 4#8)).selects 0x50000000000#43 = true ∧
    rowOf (.illegalCmd 4#8) ≠ rowOf (decode 0x50000000000#43) := by decide +kernel

theorem witness_IgnoredBitsHaveNoEffect :
    0x504FFFFFF31#43 &&& (decode 0x504FFFFFF31#43).actingBits = 0x50400000031#43 &&& (decode 0x504FFFFFF31#43).actingBits ∧
    0x504FFFFFF31#43 ≠ 0x50400000031#43 := by decide +kernel

theorem witness_StepRunsTheDecodedAccess :
    (State.reset.drive 0x50400000031#43).inputs = .request (Request.ofTW 0x50400000031#43) :: [] ∧
    decodeTableWord 48 0x50400000031 = some (.crcByte 0x31#8) := by decide +kernel

theorem witness_EdgeWithoutRequestChangesNothing :
    State.reset.inputs = [] ∧ ({ sharedState with inputs := [.idle] } : State).inputs = .idle :: [] := ⟨rfl, rfl⟩

theorem witness_WithdrawnRequestIsRefused :
    ({ sharedState with inputs := [.withdrawn (Request.ofTW 0x50000000002#43)] } : State).inputs =
      .withdrawn (Request.ofTW 0x50000000002#43) :: [] := rfl

/-- An edge with rst = 1, and the aligned offsets at the two ends of the window and at CRC. -/
theorem witness_BlockResetRestoresEveryElement :
    ({ sharedState with inputs := [.reset none] } : State).inputs = .reset none :: [] ∧
    (0x00#8 : Offset).extractLsb' 0 2 = 0#2 ∧ (0x08#8 : Offset).extractLsb' 0 2 = 0#2 ∧
    (0xFC#8 : Offset).extractLsb' 0 2 = 0#2 := by decide

theorem witness_WellDrivenMachineNeverStops :
    ({ sharedState with inputs := [.idle, .request (Request.ofTW 0x50000000002#43), .reset none] } : State).wellDriven = true := by
  decide

/-- A wrong size, a wrong alignment, and an access that is neither. -/
theorem witness_BusErrorExactlyOnBadSizeOrAlignment :
    (0x10400000055#43 : TW).extractLsb' 41 2 ≠ 0b10#2 ∧ (0x40A00000000#43 : TW).extractLsb' 32 2 ≠ 0b00#2 ∧
    (0x40800000000#43 : TW).extractLsb' 41 2 = 0b10#2 ∧ (0x40800000000#43 : TW).extractLsb' 32 2 = 0b00#2 := by decide

theorem witness_ReadsHaveNoSideEffects : (0x41C00000000#43 : TW).getLsbD 40 = false := by decide

/-- The CRC registers change by CRC_INIT and by CRC_BYTE. -/
theorem witness_OnlyTheNamedOperationsChangeState_crc :
    (after .crcInit sharedState).map (fun t => (decide (t.crcAcc ≠ sharedState.crcAcc), decide (t.lenCnt ≠ sharedState.lenCnt))) =
      some (true, true) ∧
    (after (.crcByte 0#8) { State.reset with lenCnt := 0xFFFF#16 }).map State.lenOvf = some true ∧
    (after .crcInit statusE).map State.lenOvf = some false := by decide +kernel

/-- FRAME and FRAME_VALID change by an accepted ENC_FLASH, and FRAME_VALID falls by a refused one. -/
theorem witness_OnlyTheNamedOperationsChangeState_frame :
    (after (.encFlash 1#16) State.reset).map (fun t => (decide (t.frame ≠ State.reset.frame), t.frameValid)) =
      some (true, true) ∧
    (after (.encFlash 1#16) { sharedState with lenOvf := true }).map (fun t => (t.frameValid, t.errLen)) =
      some (false, true) := by decide +kernel

/-- The error bits are set by their events and cleared by CLR_ERR. -/
theorem witness_OnlyTheNamedOperationsChangeState_errors :
    (after (.illegalCmd 4#8) State.reset).map State.errIllegal = some true ∧
    (after (.clrErr 0x4#32) statusE).map State.errIllegal = some false ∧
    (after (.clrErr 0x8#32) statusE).map State.errLen = some false := by decide +kernel

theorem witness_ErrorBitsBlockNothing : Instr.crcInit ≠ .rdStatus := by decide

/-- One word for each mask and match of the operations' rules, with ignored bits set. -/
theorem witness_operation_encodings :
    (0x500ABCDEE10#43 : TW) &&& 0x7FF000000FF#43 = 0x50000000010#43 ∧
    (0x504FFFFFF31#43 : TW) &&& 0x7FF00000000#43 = 0x50400000000#43 ∧
    (0x40800000001#43 : TW) &&& 0x7FF00000000#43 = 0x40800000000#43 ∧
    (0x40C00000001#43 : TW) &&& 0x7FF00000000#43 = 0x40C00000000#43 ∧
    (0x500FFFF9901#43 : TW) &&& 0x7FF000000FF#43 = 0x50000000001#43 ∧
    (0x500FFFF9902#43 : TW) &&& 0x7FF000000FF#43 = 0x50000000002#43 ∧
    (0x500FFFF9903#43 : TW) &&& 0x7FF000000FF#43 = 0x50000000003#43 ∧
    (0x500FFFF9900#43 : TW) &&& 0x7FF000000FF#43 = 0x50000000000#43 ∧
    (0x41400000001#43 : TW) &&& 0x7FF00000000#43 = 0x41400000000#43 ∧
    (0x41800000001#43 : TW) &&& 0x7FF00000000#43 = 0x41800000000#43 ∧
    (0x41000000001#43 : TW) &&& 0x7FF00000000#43 = 0x41000000000#43 ∧
    (0x510FFFFFFFF#43 : TW) &&& 0x7FF00000000#43 = 0x51000000000#43 := by decide

/-- The same for the reserved, ignored and write-only forms; the reserved slots at both ends of their range. -/
theorem witness_reserved_encodings :
    ((0x500000000FF#43 : TW) &&& 0x7FF00000000#43 = 0x50000000000#43 ∧
      (0x500000000FF#43 : TW).extractLsb' 0 8 ∉ [0x00#8, 0x01#8, 0x02#8, 0x03#8, 0x10#8]) ∧
    (0x50800001234#43 : TW) &&& 0x7FF00000000#43 = 0x50800000000#43 ∧
    (0x50C00001234#43 : TW) &&& 0x7FF00000000#43 = 0x50C00000000#43 ∧
    (0x51400001234#43 : TW) &&& 0x7FF00000000#43 = 0x51400000000#43 ∧
    (0x51800001234#43 : TW) &&& 0x7FF00000000#43 = 0x51800000000#43 ∧
    (0x40000000001#43 : TW) &&& 0x7FF00000000#43 = 0x40000000000#43 ∧
    (0x40400000001#43 : TW) &&& 0x7FF00000000#43 = 0x40400000000#43 ∧
    ((0x41C00000000#43 : TW) &&& 0x70300000000#43 = 0x40000000000#43 ∧ 0x1C#8 ≤ (0x41C00000000#43 : TW).extractLsb' 32 8) ∧
    ((0x5FC00000001#43 : TW) &&& 0x70300000000#43 = 0x50000000000#43 ∧ 0x1C#8 ≤ (0x5FC00000001#43 : TW).extractLsb' 32 8) := by
  decide

theorem witness_EncFlashBuildsOrIsRefused : State.reset.lenOvf = false ∧ statusE.lenOvf = true := ⟨rfl, rfl⟩

/-- Reset tracks the empty sequence, and a DATA write is next. -/
theorem witness_RegistersTrackTheBytesFed :
    (State.reset.drive 0x50400000031#43).Tracks [] ∧ (stepped (State.reset.drive 0x50400000031#43)).isSome = true :=
  ⟨⟨rfl, rfl, rfl⟩, by decide +kernel⟩

theorem witness_FrameBufferStaysLegal :
    (State.reset.drive 0x50000000003#43).FrameInv ∧ (stepped (State.reset.drive 0x50000000003#43)).isSome = true :=
  ⟨⟨.inl rfl, fun h => by cases h⟩, by decide +kernel⟩

/-- A payload below the limit, and one at it. -/
theorem witness_FlashHeaderDescribesThePayload :
    (List.replicate 65535 (0x00#8 : Byte)).length < 65536 ∧ 65536 ≤ (List.replicate 65536 (0x00#8 : Byte)).length := by
  rw [List.length_replicate, List.length_replicate]
  omega

/-- Operands on both sides of each range. -/
theorem witness_AssemblerPlacesOperandsOrRefusesThem :
    assemble (.wrB 0xFF 0xFFFFFFFF) = .ok [0x1FFFFFFFFFF#43] ∧ assemble (.wr 0x100 0) = .error .outOfRange ∧
    assemble (.wrH 0 0x100000000) = .error .outOfRange ∧ assemble (.rdH 0x08) = .ok [0x20800000000#43] ∧
    assemble (.rd 0x100) = .error .outOfRange ∧ assemble (.crcByte 255) = .ok [0x504000000FF#43] :=
  ⟨rfl, rfl, rfl, rfl, rfl, rfl⟩

theorem witness_PseudoInstructionsExpand :
    (∀ c ∈ [0x31, 0x7F], c < 128) ∧ assemble .nop = .ok [0x50000000000#43] := ⟨by decide, by rfl⟩

/-- A Nack, silence, and an Ack that is never read because the Hello frame's write fails. -/
theorem witness_NoCommandFrameWithoutAck :
    (Session.start [.byte 0xA5#8]).rx.head? ≠ some (.byte 0x01#8) ∧ (Session.start []).rx.head? ≠ some (.byte 0x01#8) ∧
    ({ Session.start [.byte 0x01#8] with writes := [.ioError 2] } : Session).writes.head? = some (.ioError 2) := by
  decide

theorem witness_FlashPageWritesHeaderThenPayload :
    (Session.start [.byte 0x01#8, .byte 0x01#8, .byte 0x01#8]).rx =
      .byte 0x01#8 :: .byte 0x01#8 :: .byte 0x01#8 :: [] ∧
    (∀ e ∈ ({ Session.start [] with writes := [.sent, .sent] } : Session).writes.take 3, e = .sent) ∧
    (Session.start []).block.errIllegal = false ∧ (Session.start []).block.errLen = false ∧
    [(0x41#8 : Byte)].length < 65536 := by decide

end Sys2Proof.Tests
end

section
/-! What one access can do to each group of elements of state (10_state.md R23 to R29), drawn once from `exec_cases`. -/

namespace Sys2Proof.Machine

/-! ### The updates of CRC_INIT and CRC_BYTE, per field -/

@[simp] theorem State.crcInitialised_lenOvf (s : State) : s.crcInitialised.lenOvf = false := rfl
@[simp] theorem State.crcInitialised_frame (s : State) : s.crcInitialised.frame = s.frame := rfl
@[simp] theorem State.crcInitialised_frameValid (s : State) : s.crcInitialised.frameValid = s.frameValid := rfl
@[simp] theorem State.crcInitialised_errIllegal (s : State) : s.crcInitialised.errIllegal = s.errIllegal := rfl
@[simp] theorem State.crcInitialised_errLen (s : State) : s.crcInitialised.errLen = s.errLen := rfl

@[simp] theorem State.byteFed_lenOvf (s : State) (b : Byte) :
    (s.byteFed b).lenOvf = lenOvfAfterByte s.lenCnt s.lenOvf := rfl
@[simp] theorem State.byteFed_frame (s : State) (b : Byte) : (s.byteFed b).frame = s.frame := rfl
@[simp] theorem State.byteFed_frameValid (s : State) (b : Byte) : (s.byteFed b).frameValid = s.frameValid := rfl
@[simp] theorem State.byteFed_errIllegal (s : State) (b : Byte) : (s.byteFed b).errIllegal = s.errIllegal := rfl
@[simp] theorem State.byteFed_errLen (s : State) (b : Byte) : (s.byteFed b).errLen = s.errLen := rfl

/-- LEN_OVF is set after a byte when it was set before, or when that byte found the counter at its last value (R25). -/
@[simp] theorem lenOvfAfterByte_eq_true_iff (count : Half) (ovf : Bool) :
    lenOvfAfterByte count ovf = true ↔ ovf = true ∨ count = 0xFFFF#16 := by
  simp [lenOvfAfterByte]

/-- LEN_OVF is sticky: no byte clears it (R25). -/
@[simp] theorem lenOvfAfterByte_true (count : Half) : lenOvfAfterByte count true = true := rfl

/-! ### Which access changes which group -/

/-- The accesses that build a frame in `s`: ENC_RESET, ENC_LOAD, and ENC_FLASH unless LEN_OVF refuses it (R26, R163). -/
def BuildsFrame (i : Instr) (s : State) : Prop :=
  (∃ o, i = .encFlash o ∧ s.lenOvf = false) ∨ i = .encReset ∨ i = .encLoad

variable {i : Instr} {s t : State}

/-- CRC_ACC, LEN_CNT and LEN_OVF are kept, initialised by CRC_INIT, or advanced by CRC_BYTE (R23, R24, R25). -/
theorem exec_crcRegisters_cases (h : exec i s = .next t) :
    (t.crcAcc = s.crcAcc ∧ t.lenCnt = s.lenCnt ∧ t.lenOvf = s.lenOvf) ∨
    (i = .crcInit ∧ t = s.crcInitialised) ∨ (∃ b, i = .crcByte b ∧ t = s.byteFed b) := by
  obtain ⟨-, rfl⟩ | ⟨-, r, rfl⟩ | ⟨-, rfl⟩ | ⟨-, rfl⟩ | ⟨o, -, -, rfl⟩ | ⟨f, rfl, -⟩ | hinit | hbyte | ⟨m, -, rfl⟩ :=
    exec_cases h
  any_goals exact .inl ⟨rfl, rfl, rfl⟩
  · exact .inr (.inl hinit)
  · exact .inr (.inr hbyte)

/-- FRAME and FRAME_VALID are kept, made valid with a built frame, or only invalidated by a refused ENC_FLASH (R26, R27). -/
theorem exec_frame_cases (h : exec i s = .next t) :
    (t.frame = s.frame ∧ t.frameValid = s.frameValid) ∨
    (BuildsFrame i s ∧ t.frameValid = true) ∨
    ((∃ o, i = .encFlash o ∧ s.lenOvf = true) ∧ t.frame = s.frame ∧ t.frameValid = false) := by
  obtain ⟨-, rfl⟩ | ⟨-, r, rfl⟩ | ⟨-, rfl⟩ | ⟨-, rfl⟩ | ⟨o, hi, hov, rfl⟩ | ⟨f, rfl, hbuild⟩ | ⟨-, rfl⟩ | ⟨b, -, rfl⟩ |
    ⟨m, -, rfl⟩ := exec_cases h
  any_goals exact .inl ⟨rfl, rfl⟩
  · exact .inr (.inr ⟨⟨o, hi, hov⟩, rfl, rfl⟩)
  · have hb : BuildsFrame i s := hbuild.imp (fun ⟨o, hi, hov, _⟩ => ⟨o, hi, hov⟩) (.imp And.left And.left)
    exact .inr (.inl ⟨hb, rfl⟩)

/-- The error bits are kept, set by their own event, or cleared by CLR_ERR as its mask says (R28, R29). -/
theorem exec_errorBits_cases (h : exec i s = .next t) :
    (t.errIllegal = s.errIllegal ∧ t.errLen = s.errLen) ∨
    ((∃ op, i = .illegalCmd op) ∧ t.errIllegal = true ∧ t.errLen = s.errLen) ∨
    ((∃ o, i = .encFlash o ∧ s.lenOvf = true) ∧ t.errIllegal = s.errIllegal ∧ t.errLen = true) ∨
    (∃ m, i = .clrErr m ∧ t = (s.clearErrors m).wrote) := by
  obtain ⟨-, rfl⟩ | ⟨-, r, rfl⟩ | ⟨-, rfl⟩ | ⟨hill, rfl⟩ | ⟨o, hi, hov, rfl⟩ | ⟨f, rfl, -⟩ | ⟨-, rfl⟩ | ⟨b, -, rfl⟩ |
    hclr := exec_cases h
  any_goals exact .inl ⟨rfl, rfl⟩
  · exact .inr (.inl ⟨hill, rfl, rfl⟩)
  · exact .inr (.inr (.inl ⟨⟨o, hi, hov⟩, rfl, rfl⟩))
  · exact .inr (.inr (.inr hclr))

/-! ### The direction of each change -/

theorem exec_crcAcc_changes (h : exec i s = .next t) (hne : t.crcAcc ≠ s.crcAcc) :
    i = .crcInit ∨ ∃ b, i = .crcByte b := by
  obtain ⟨heq, -, -⟩ | ⟨hinit, -⟩ | ⟨b, hbyte, -⟩ := exec_crcRegisters_cases h
  · exact absurd heq hne
  · exact .inl hinit
  · exact .inr ⟨b, hbyte⟩

theorem exec_lenCnt_changes (h : exec i s = .next t) (hne : t.lenCnt ≠ s.lenCnt) :
    i = .crcInit ∨ ∃ b, i = .crcByte b := by
  obtain ⟨-, heq, -⟩ | ⟨hinit, -⟩ | ⟨b, hbyte, -⟩ := exec_crcRegisters_cases h
  · exact absurd heq hne
  · exact .inl hinit
  · exact .inr ⟨b, hbyte⟩

theorem exec_lenOvf_rises (h : exec i s = .next t) (hs : s.lenOvf = false) (ht : t.lenOvf = true) :
    s.lenCnt = 0xFFFF#16 ∧ ∃ b, i = .crcByte b := by
  obtain ⟨-, -, hovf⟩ | ⟨-, rfl⟩ | ⟨b, hbyte, rfl⟩ := exec_crcRegisters_cases h
  · simp [hovf, hs] at ht
  · simp at ht
  · exact ⟨by simpa [hs] using ht, b, hbyte⟩

theorem exec_lenOvf_falls (h : exec i s = .next t) (hs : s.lenOvf = true) (ht : t.lenOvf = false) : i = .crcInit := by
  obtain ⟨-, -, hovf⟩ | ⟨hinit, -⟩ | ⟨b, -, rfl⟩ := exec_crcRegisters_cases h
  · simp [hovf, hs] at ht
  · exact hinit
  · simp [hs] at ht

theorem exec_frame_changes (h : exec i s = .next t) (hne : t.frame ≠ s.frame) : BuildsFrame i s := by
  obtain ⟨heq, -⟩ | ⟨hbuild, -⟩ | ⟨-, heq, -⟩ := exec_frame_cases h
  · exact absurd heq hne
  · exact hbuild
  · exact absurd heq hne

theorem exec_frameValid_rises (h : exec i s = .next t) (hs : s.frameValid = false) (ht : t.frameValid = true) :
    BuildsFrame i s := by
  obtain ⟨-, heq⟩ | ⟨hbuild, -⟩ | ⟨-, -, hinvalid⟩ := exec_frame_cases h
  · simp [heq, hs] at ht
  · exact hbuild
  · simp [hinvalid] at ht

theorem exec_frameValid_falls (h : exec i s = .next t) (hs : s.frameValid = true) (ht : t.frameValid = false) :
    ∃ o, i = .encFlash o ∧ s.lenOvf = true := by
  obtain ⟨-, heq⟩ | ⟨-, hvalid⟩ | ⟨hrefused, -, -⟩ := exec_frame_cases h
  · simp [heq, hs] at ht
  · simp [hvalid] at ht
  · exact hrefused

theorem exec_errIllegal_rises (h : exec i s = .next t) (hs : s.errIllegal = false) (ht : t.errIllegal = true) :
    ∃ op, i = .illegalCmd op := by
  obtain ⟨heq, -⟩ | ⟨hill, -, -⟩ | ⟨-, heq, -⟩ | ⟨m, -, rfl⟩ := exec_errorBits_cases h
  · simp [heq, hs] at ht
  · exact hill
  · simp [heq, hs] at ht
  · simp [hs] at ht

theorem exec_errIllegal_falls (h : exec i s = .next t) (hs : s.errIllegal = true) (ht : t.errIllegal = false) :
    ∃ m : Word, i = .clrErr m ∧ m.getLsbD 2 = true := by
  obtain ⟨heq, -⟩ | ⟨-, hset, -⟩ | ⟨-, heq, -⟩ | ⟨m, hclr, rfl⟩ := exec_errorBits_cases h
  · simp [heq, hs] at ht
  · simp [hset] at ht
  · simp [heq, hs] at ht
  · exact ⟨m, hclr, by simpa [hs] using ht⟩

theorem exec_errLen_rises (h : exec i s = .next t) (hs : s.errLen = false) (ht : t.errLen = true) :
    ∃ o, i = .encFlash o ∧ s.lenOvf = true := by
  obtain ⟨-, heq⟩ | ⟨-, -, heq⟩ | ⟨hrefused, -, -⟩ | ⟨m, -, rfl⟩ := exec_errorBits_cases h
  · simp [heq, hs] at ht
  · simp [heq, hs] at ht
  · exact hrefused
  · simp [hs] at ht

theorem exec_errLen_falls (h : exec i s = .next t) (hs : s.errLen = true) (ht : t.errLen = false) :
    ∃ m : Word, i = .clrErr m ∧ m.getLsbD 3 = true := by
  obtain ⟨-, heq⟩ | ⟨-, -, heq⟩ | ⟨-, -, hset⟩ | ⟨m, hclr, rfl⟩ := exec_errorBits_cases h
  · simp [heq, hs] at ht
  · simp [heq, hs] at ht
  · simp [hset] at ht
  · exact ⟨m, hclr, by simpa [hs] using ht⟩

end Sys2Proof.Machine

namespace Sys2Proof.Proofs

open Sys2Proof.Machine

/-- Settles O16: each element's clause is its own lemma above. -/
theorem onlyTheNamedOperationsChangeState : Obligations.OnlyTheNamedOperationsChangeState := by
  intro i s t h
  exact ⟨exec_crcAcc_changes h, exec_lenCnt_changes h, exec_lenOvf_rises h, exec_lenOvf_falls h, exec_frame_changes h,
    exec_frameValid_rises h, exec_frameValid_falls h, exec_errIllegal_rises h, exec_errIllegal_falls h,
    exec_errLen_rises h, exec_errLen_falls h⟩

end Sys2Proof.Proofs
end

section
/-! ERR_ILLEGAL and ERR_LEN block nothing (10_state.md R28, R29): an access commutes with overwriting the two bits. -/

namespace Sys2Proof.Machine

/-- `s` with the two error bits replaced, and nothing else. -/
def State.withErrors (s : State) (a b : Bool) : State := { s with errIllegal := a, errLen := b }

/-- No register but STATUS shows the error bits (R31 to R37). -/
theorem State.readReg_withErrors {r : Reg} (hr : r ≠ .status) (s : State) (a b : Bool) :
    (s.withErrors a b).readReg r = s.readReg r := by
  cases r
  case status => exact absurd rfl hr
  all_goals rfl

/-- A read of any register but STATUS commutes with replacing the error bits. -/
theorem State.answerRead_withErrors {r : Reg} (hr : r ≠ .status) (s : State) (a b : Bool) :
    (s.withErrors a b).answerRead r = (s.answerRead r).withErrors a b := by
  simp only [State.answerRead, State.readReg_withErrors hr]
  rfl

/-- ENC_FLASH commutes with replacing the error bits: LEN_OVF alone decides whether it is refused (R163), and a refusal
sets ERR_LEN in both states. -/
theorem execEncFlash_withErrors (o : Half) (s : State) (a b : Bool) :
    ∃ t a' b', execEncFlash o s = .next t ∧ execEncFlash o (s.withErrors a b) = .next (t.withErrors a' b') := by
  cases hov : s.lenOvf with
  | true => exact ⟨s.raise .lenRefused, a, true, if_pos hov, if_pos hov⟩
  | false =>
    have hno : ¬ s.lenOvf = true := by simp [hov]
    exact ⟨s.putFrame (flashFrame s.headerLength o s.headerCrc), a, b, if_neg hno, if_neg hno⟩

/-- Replacing the error bits before any access but RD_STATUS comes to replacing them after it. -/
theorem exec_withErrors {i : Instr} (hi : i ≠ .rdStatus) (s : State) (a b : Bool) :
    ∃ t a' b', exec i s = .next t ∧ exec i (s.withErrors a b) = .next (t.withErrors a' b') := by
  cases i
  case rdStatus => exact absurd rfl hi
  case encFlash o => exact execEncFlash_withErrors o s a b
  case illegalCmd op => exact ⟨s.raise .illegalOp, true, b, rfl, rfl⟩
  case clrErr m => exact ⟨(s.clearErrors m).wrote, a && !m.getLsbD 2, b && !m.getLsbD 3, rfl, rfl⟩
  case rdCmd | rdData | rdCrc | rdLen | rdFrameLo | rdFrameHi | rdRsv =>
    exact ⟨_, a, b, rfl, congrArg _ (State.answerRead_withErrors (by decide) s a b)⟩
  case encReset | encLoad | crcInit | crcByte => exact ⟨_, a, b, rfl, rfl⟩
  case nop | wrCrcIgn | wrLenIgn | wrFrameLoIgn | wrFrameHiIgn | wrRsv => exact ⟨s.wrote, a, b, rfl, rfl⟩
  all_goals exact ⟨s.raise .busError, a, b, rfl, rfl⟩

end Sys2Proof.Machine

namespace Sys2Proof.Proofs

open Sys2Proof.Machine

/-- Settles O17, by the commutation of an access with replacing the error bits; RD_STATUS changes nothing but its reply. -/
theorem errorBitsBlockNothing : Obligations.ErrorBitsBlockNothing := by
  intro i s a b
  by_cases hi : i = .rdStatus
  · subst hi
    exact ⟨s.answerRead .status, (s.withErrors a b).answerRead .status, rfl, rfl, rfl, rfl, rfl, rfl, rfl, rfl,
      fun hne => absurd rfl hne⟩
  · obtain ⟨t, a', b', ht, hu⟩ := exec_withErrors hi s a b
    exact ⟨t, t.withErrors a' b', ht, hu, rfl, rfl, rfl, rfl, rfl, rfl, fun _ => rfl⟩

end Sys2Proof.Proofs
end

section
/-! The reset state (10_state.md R22). -/

namespace Sys2Proof.Proofs

open Sys2Proof.Machine

/-- Settles O9: `State.reset` holds the table's values as they stand. -/
theorem resetStateHoldsTheSpecValues : Obligations.ResetStateHoldsTheSpecValues :=
  ⟨rfl, rfl, rfl, rfl, rfl, rfl, rfl⟩

/-- Settles O36: the buffer holds the reset contents, and FRAME_VALID is 0. -/
theorem resetFrameBufferIsLegal : Obligations.ResetFrameBufferIsLegal where
  legal := .inl rfl
  built hvalid := nomatch (hvalid : false = true)

end Sys2Proof.Proofs
end

section
/-! One step per kind of input (20_memory.md R50, R58, R59), and what the decoder reads from a table word (R60, R67). -/

namespace Sys2Proof.Machine

/-! ### The step on each input -/

variable {s : State} {rest : List BusInput}

theorem step_empty (h : s.inputs = []) : step s = .next s.idle := by
  simp [step, h]

theorem step_idleEdge (h : s.inputs = .idle :: rest) : step s = .next (s.takeInput rest).idle := by
  simp [step, h]

theorem step_request {r : Request} (h : s.inputs = .request r :: rest) :
    step s = exec (decode r.tw) (s.takeInput rest) := by
  simp [step, h]

theorem step_withdrawn {r : Request} (h : s.inputs = .withdrawn r :: rest) : step s = .refused .requestWithdrawn := by
  simp [step, h]

theorem step_resetEdge {p : Option Request} (h : s.inputs = .reset p :: rest) :
    step s = .next (s.takeInput rest).blockReset := by
  simp [step, h]

/-- A table word that the decoder reads is a transaction word, and decodes to the same (R69). -/
theorem decode_of_decodeTableWord {nbits w : Nat} {i : Instr} (h : decodeTableWord nbits w = some i) :
    decode (BitVec.ofNat 43 w) = i := by
  unfold decodeTableWord decodeNat at h
  split at h
  · exact Option.some.inj h
  · cases h

end Sys2Proof.Machine

namespace Sys2Proof.Proofs

open Sys2Proof.Machine

/-- Settles O6: the step on a request, the fields of a composed word, and the step after `drive`. -/
theorem stepRunsTheDecodedAccess : Obligations.StepRunsTheDecodedAccess := by
  refine ⟨fun s r rest h => step_request h, fun r => ?_, fun s nbits w i h => ?_⟩
  · exact ⟨twSize_mkTW .., twWrite_mkTW .., twAddr_mkTW .., twData_mkTW ..⟩
  · rw [State.withFetchWord, step_drive, decode_of_decodeTableWord h]

/-- Settles O7: the step on an empty queue and on an idle edge. -/
theorem edgeWithoutRequestChangesNothing : Obligations.EdgeWithoutRequestChangesNothing :=
  ⟨fun _ h => step_empty h, fun _ _ h => step_idleEdge h⟩

/-- Settles O8: the step on a withdrawn request. -/
theorem withdrawnRequestIsRefused : Obligations.WithdrawnRequestIsRefused :=
  fun _ _ _ h => step_withdrawn h

end Sys2Proof.Proofs
end

section
/-! Every access completes and leaves the queue alone (60_exceptions.md R160, R166), so only a withdrawn request can stop
the machine (20_memory.md R59). -/

namespace Sys2Proof.Machine

/-! ### Completion -/

/-- Every operation has a next state, in every state: ENC_FLASH on both sides of LEN_OVF (R163), the rest by their arms. -/
theorem exec_completes (i : Instr) (s : State) : ∃ t, exec i s = .next t := by
  cases i
  case encFlash o =>
    simp only [exec, execEncFlash]
    split
    · exact ⟨_, rfl⟩
    · exact ⟨_, rfl⟩
  all_goals exact ⟨_, rfl⟩

variable {i : Instr} {s t : State}

/-- A completed access shows ready = 1 and leaves what the host drives next (R58, R59). -/
theorem exec_ready_inputs (h : exec i s = .next t) : t.reply.ready = true ∧ t.inputs = s.inputs := by
  obtain ⟨-, rfl⟩ | ⟨-, r, rfl⟩ | ⟨-, rfl⟩ | ⟨-, rfl⟩ | ⟨o, -, -, rfl⟩ | ⟨f, rfl, -⟩ | ⟨-, rfl⟩ | ⟨b, -, rfl⟩ |
    ⟨m, -, rfl⟩ := exec_cases h
  all_goals exact ⟨rfl, rfl⟩

/-! ### A host that keeps the handshake's rule -/

/-- Whether the host keeps the rule depends on its queue alone. -/
theorem State.wellDriven_congr (h : t.inputs = s.inputs) : t.wellDriven = s.wellDriven := by
  rw [State.wellDriven, State.wellDriven, h]

/-- Taking the next input off the queue keeps the rule. -/
theorem State.wellDriven_takeInput {e : BusInput} {rest : List BusInput} (h : s.wellDriven = true)
    (hi : s.inputs = e :: rest) : (s.takeInput rest).wellDriven = true := by
  rw [State.wellDriven, hi, List.all_cons, Bool.and_eq_true] at h
  exact h.2

/-- A host that keeps the rule withdraws no request. -/
theorem State.not_withdrawn_of_wellDriven {r : Request} {rest : List BusInput} (h : s.wellDriven = true) :
    s.inputs ≠ .withdrawn r :: rest := by
  intro hi
  rw [State.wellDriven, hi] at h
  cases h

end Sys2Proof.Machine

namespace Sys2Proof.Proofs

open Sys2Proof.Machine

/-- Settles O12, by the kind of the next input: the one that stops the machine is excluded, and every other step takes
that input off the queue and leaves the rest. -/
theorem wellDrivenMachineNeverStops : Obligations.WellDrivenMachineNeverStops := by
  intro s hs
  cases hi : s.inputs with
  | nil => exact ⟨s.idle, step_empty hi, hs⟩
  | cons e rest =>
    have hrest : (s.takeInput rest).wellDriven = true := State.wellDriven_takeInput hs hi
    cases e with
    | idle => exact ⟨(s.takeInput rest).idle, step_idleEdge hi, hrest⟩
    | request r =>
      obtain ⟨t, ht⟩ := exec_completes (decode r.tw) (s.takeInput rest)
      exact ⟨t, (step_request hi).trans ht, (State.wellDriven_congr (exec_ready_inputs ht).2).trans hrest⟩
    | withdrawn r => exact absurd hi (State.not_withdrawn_of_wellDriven hs)
    | reset p => exact ⟨(s.takeInput rest).blockReset, step_resetEdge hi, hrest⟩

end Sys2Proof.Proofs
end

section
/-! Which kind of access a word is, by its size, alignment and direction (20_memory.md R43 to R45; 30_encoding.md R67), and
what each kind answers (R49, R58, R162). -/

namespace Sys2Proof

/-! ### The kind of a decoded access -/

/-- An aligned 32-bit read decodes to a read (R67). -/
theorem decodeRead_isRead (off : Offset) : (decodeRead off).isRead = true := by
  unfold decodeRead
  repeat' split
  all_goals rfl

/-- A CMD write decodes to no read and to no bus error, whatever its OP (R65, R67). -/
theorem decodeCmd_isWrite (d : Word) : (decodeCmd d).isRead = false ∧ (decodeCmd d).isBusError = false := by
  unfold decodeCmd
  repeat' split
  all_goals exact ⟨rfl, rfl⟩

/-- An aligned 32-bit write decodes to no read and to no bus error (R67). -/
theorem decodeWrite_isWrite (off : Offset) (d : Word) :
    (decodeWrite off d).isRead = false ∧ (decodeWrite off d).isBusError = false := by
  unfold decodeWrite
  repeat' split
  · exact decodeCmd_isWrite d
  all_goals exact ⟨rfl, rfl⟩

/-- A 2-bit field has one of four values. -/
theorem twoBits_cases (x : BitVec 2) : x = 0#2 ∨ x = 1#2 ∨ x = 2#2 ∨ x = 3#2 := by
  revert x
  decide

variable {w : TW}

/-- `off[1:0]` of a word's offset, as bits of the word (R44, R60). -/
theorem offLow_twAddr (w : TW) : offLow (twAddr w) = w.extractLsb' 32 2 := by
  ext i hi
  have h8 : i < 8 := by omega
  simp [offLow, twAddr, h8]

/-- A wrong size decodes to a size error, whatever the alignment (R43, R45). -/
theorem decode_of_badSize (hsize : twSize w ≠ 2#2) :
    (∃ we off, decode w = .buserrSize8 we off) ∨ (∃ we off, decode w = .buserrSize16 we off) ∨
      (∃ we off, decode w = .buserrSizeRsv we off) := by
  obtain h | h | h | h := twoBits_cases (twSize w)
  · exact .inl ⟨twWrite w, twAddr w, by simp [decode, decodeFields, h]⟩
  · exact .inr (.inl ⟨twWrite w, twAddr w, by simp [decode, decodeFields, h]⟩)
  · exact absurd h hsize
  · exact .inr (.inr ⟨twWrite w, twAddr w, by simp [decode, decodeFields, h]⟩)

/-- A misaligned 32-bit access decodes to a bus error (R44). -/
theorem decode_isBusError_of_misaligned (hsize : twSize w = 2#2) (halign : offLow (twAddr w) ≠ 0#2) :
    (decode w).isBusError = true := by
  obtain h | h | h | h := twoBits_cases (offLow (twAddr w))
  · exact absurd h halign
  all_goals simp [decode, decodeFields, hsize, h, Instr.isBusError]

/-- A wrong size or a misaligned offset decodes to a bus error (R43, R44). -/
theorem decode_isBusError (h : twSize w ≠ 2#2 ∨ offLow (twAddr w) ≠ 0#2) : (decode w).isBusError = true := by
  by_cases hsize : twSize w = 2#2
  · exact decode_isBusError_of_misaligned hsize (h.resolve_left (not_not_intro hsize))
  · obtain ⟨we, off, e⟩ | ⟨we, off, e⟩ | ⟨we, off, e⟩ := decode_of_badSize hsize
    all_goals rw [e]; rfl

/-- An aligned 32-bit access with W = 1 is a write (R67). -/
theorem decode_of_alignedWrite (hsize : twSize w = 2#2) (halign : offLow (twAddr w) = 0#2) (hwr : twWrite w = true) :
    decode w = decodeWrite (twAddr w) (twData w) := by
  simp [decode, decodeFields, hsize, halign, hwr]

/-- An aligned 32-bit access with W = 0 is a read (R67). -/
theorem decode_of_alignedRead (hsize : twSize w = 2#2) (halign : offLow (twAddr w) = 0#2) (hwr : twWrite w = false) :
    decode w = decodeRead (twAddr w) := by
  simp [decode, decodeFields, hsize, halign, hwr]

namespace Machine

/-! ### What each kind answers -/

/-- A bus error changes nothing but the reply (R162). -/
theorem exec_of_isBusError {i : Instr} (hi : i.isBusError = true) (s : State) :
    exec i s = .next (s.raise .busError) := by
  cases i
  case buserrSize8 | buserrSize16 | buserrSizeRsv | buserrAlign1 | buserrAlign2 | buserrAlign3 => rfl
  all_goals cases hi

/-- A read answers one register's value, the same register in every state (R49). -/
theorem exec_of_isRead {i : Instr} (hi : i.isRead = true) : ∃ r, ∀ s, exec i s = .next (s.answerRead r) := by
  cases i
  case rdCmd | rdData | rdCrc | rdLen | rdStatus | rdFrameLo | rdFrameHi | rdRsv => exact ⟨_, fun _ => rfl⟩
  all_goals cases hi

/-- An access that is no read and no bus error answers as a write (R58). -/
theorem exec_reply_of_isWrite {i : Instr} {s t : State} (hread : i.isRead = false) (hbus : i.isBusError = false)
    (h : exec i s = .next t) : t.reply = .wrote := by
  obtain ⟨-, rfl⟩ | ⟨hr, -⟩ | ⟨hb, -⟩ | ⟨-, rfl⟩ | ⟨o, -, -, rfl⟩ | ⟨f, rfl, -⟩ | ⟨-, rfl⟩ | ⟨b, -, rfl⟩ |
    ⟨m, -, rfl⟩ := exec_cases h
  case inr.inl => simp [hread] at hr
  case inr.inr.inl => simp [hbus] at hb
  all_goals rfl

/-- An aligned 32-bit access with W = 1 answers as a write (R58, R67). -/
theorem exec_reply_of_alignedWrite {w : TW} {s t : State} (hsize : twSize w = 2#2) (halign : offLow (twAddr w) = 0#2)
    (hwr : twWrite w = true) (h : exec (decode w) s = .next t) : t.reply = .wrote := by
  rw [decode_of_alignedWrite hsize halign hwr] at h
  obtain ⟨hread, hbus⟩ := decodeWrite_isWrite (twAddr w) (twData w)
  exact exec_reply_of_isWrite hread hbus h

/-- An aligned 32-bit access with W = 0 answers one register's value, the same register in every state (R49, R67). -/
theorem exec_of_alignedRead {w : TW} (hsize : twSize w = 2#2) (halign : offLow (twAddr w) = 0#2)
    (hwr : twWrite w = false) : ∃ r, ∀ s, exec (decode w) s = .next (s.answerRead r) := by
  rw [decode_of_alignedRead hsize halign hwr]
  exact exec_of_isRead (decodeRead_isRead (twAddr w))

end Machine

end Sys2Proof

namespace Sys2Proof.Proofs

open Sys2Proof.Machine

/-- Settles O13, by the two checks of R43 and R44: a word that fails one decodes to a bus error, and one that passes both
to a read or a write of its direction. -/
theorem busErrorExactlyOnBadSizeOrAlignment : Obligations.BusErrorExactlyOnBadSizeOrAlignment := by
  refine ⟨fun w s => ?_, fun _ => ⟨rfl, rfl, rfl⟩, rfl, rfl⟩
  rw [← offLow_twAddr]
  obtain ⟨t, ht⟩ := exec_completes (decode w) s
  refine ⟨t, ht, (exec_ready_inputs ht).1, fun hbad => ?_, fun hsize halign => ?_, decode_of_badSize⟩
  · cases (exec_of_isBusError (decode_isBusError hbad) s).symm.trans ht
    exact ⟨rfl, rfl⟩
  · cases hwr : twWrite w with
    | true =>
      have hreply : t.reply = .wrote := exec_reply_of_alignedWrite hsize halign hwr ht
      exact ⟨by rw [hreply]; rfl, fun _ => hreply, fun hread => Bool.noConfusion (hwr.symm.trans hread)⟩
    | false =>
      obtain ⟨r, hr⟩ := exec_of_alignedRead hsize halign hwr
      cases (hr s).symm.trans ht
      exact ⟨rfl, fun hwrite => Bool.noConfusion (hwr.symm.trans hwrite), fun _ => ⟨s.readReg r, rfl⟩⟩

/-- Settles O15: a word with W = 0 is a bus error or a read, and either changes nothing but the reply, which doing it
again does not change. -/
theorem readsHaveNoSideEffects : Obligations.ReadsHaveNoSideEffects := by
  intro w s hwr
  by_cases hbad : twSize w ≠ 2#2 ∨ offLow (twAddr w) ≠ 0#2
  · have he := exec_of_isBusError (decode_isBusError hbad)
    exact ⟨s.raise .busError, he s, s.sameBlock_busError, rfl, he _⟩
  · obtain ⟨hsize, halign⟩ : twSize w = 2#2 ∧ offLow (twAddr w) = 0#2 := by simpa using hbad
    obtain ⟨r, hr⟩ := exec_of_alignedRead hsize halign hwr
    exact ⟨s.answerRead r, hr s, s.sameBlock_answerRead r, rfl, hr _⟩

end Sys2Proof.Proofs
end

section
/-! The byte order of the frame words (20_memory.md R47; 10_state.md R36, R37). -/

namespace Sys2Proof.Machine

/-! ### The bytes of a word composed of bytes -/

theorem extractLsb'_append_lowByte {n : Nat} (x : BitVec n) (b : Byte) : (x ++ b).extractLsb' 0 8 = b := by
  rw [BitVec.extractLsb'_append_eq_of_add_le (by decide), BitVec.extractLsb'_eq_self]

theorem extractLsb'_append_aboveByte {n : Nat} (x : BitVec n) (b : Byte) (k : Nat) :
    (x ++ b).extractLsb' (k + 8) 8 = x.extractLsb' k 8 := by
  rw [BitVec.extractLsb'_append_eq_of_le (by omega), Nat.add_sub_cancel]

/-- The little-endian bytes of a word composed of four bytes (R47). -/
theorem wordBytes_append (b3 b2 b1 b0 : Byte) : wordBytes (b3 ++ b2 ++ b1 ++ b0) = [b0, b1, b2, b3] := by
  have above0 := extractLsb'_append_aboveByte (b3 ++ b2 ++ b1) b0
  have above1 := extractLsb'_append_aboveByte (b3 ++ b2) b1
  have above2 := extractLsb'_append_aboveByte b3 b2
  simp only [wordBytes, List.cons.injEq, and_true]
  exact ⟨extractLsb'_append_lowByte _ b0, (above0 0).trans (extractLsb'_append_lowByte _ b1),
    ((above0 8).trans (above1 0)).trans (extractLsb'_append_lowByte _ b2),
    (((above0 16).trans (above1 8)).trans (above2 0)).trans BitVec.extractLsb'_eq_self⟩

/-- Byte `j` of a word's little-endian bytes is its byte of weight 2^(8j) (R47). -/
theorem wordBytes_getElem (w : Word) (j : Nat) (hj : j < (wordBytes w).length) :
    (wordBytes w)[j] = (w >>> (8 * j)).extractLsb' 0 8 := by
  have hshift : ∀ n, (w >>> n).extractLsb' 0 8 = w.extractLsb' n 8 := by
    intro n
    ext i hi
    simp
  rw [hshift]
  match j, hj with
  | 0, _ | 1, _ | 2, _ | 3, _ => rfl

/-- FRAME_LO and then FRAME_HI, stored little-endian, are the frame in wire order (R47). -/
theorem wordBytes_frameWords (f : Vector Byte 8) :
    wordBytes (frameLoWord f) ++ wordBytes (frameHiWord f) = f.toList := by
  rw [frameLoWord, frameHiWord, wordBytes_append, wordBytes_append]
  apply List.ext_getElem
  · simp
  · intro k hk hk'
    rw [Vector.getElem_toList]
    match k, hk with
    | 0, _ | 1, _ | 2, _ | 3, _ | 4, _ | 5, _ | 6, _ | 7, _ => rfl

/-- FRAME[k] sits at weight 2^(8(k mod 4)) of its word (R36, R37). -/
theorem frame_getElem (f : Vector Byte 8) (k : Nat) (hk : k < 8) :
    f[k] = ((if k < 4 then frameLoWord f else frameHiWord f) >>> (8 * (k % 4))).extractLsb' 0 8 := by
  have hwire : f[k] = f.toList[k]'(by simpa using hk) := (Vector.getElem_toList _).symm
  simp only [hwire, ← wordBytes_frameWords, List.getElem_append, wordBytes_getElem]
  have hlen : (wordBytes (frameLoWord f)).length = 4 := rfl
  by_cases hlo : k < 4
  · simp [hlen, hlo, Nat.mod_eq_of_lt hlo]
  · have hmod : k % 4 = k - 4 := by omega
    simp [hlen, hlo, hmod]

end Sys2Proof.Machine

namespace Sys2Proof.Proofs

open Sys2Proof.Machine

/-- Settles O30: the second clause read byte by byte gives the first. -/
theorem frameWordsHoldTheWireOrder : Obligations.FrameWordsHoldTheWireOrder :=
  ⟨fun f k => frame_getElem f k.val k.isLt, wordBytes_frameWords⟩

end Sys2Proof.Proofs
end

section
/-! Decode and encode (30_encoding.md R60 to R67): the decoder's answer in each range, the range of its answers, and the
round trip over the canonical words. -/

namespace Sys2Proof

/-! ### The reserved ranges -/

/-- The offsets of the window that hold a register (R30). -/
def mappedOffsets : List Offset := [0x00#8, 0x04#8, 0x08#8, 0x0C#8, 0x10#8, 0x14#8, 0x18#8]

theorem mem_mappedOffsets {off : Offset} : off ∈ mappedOffsets ↔
    off = 0x00#8 ∨ off = 0x04#8 ∨ off = 0x08#8 ∨ off = 0x0C#8 ∨ off = 0x10#8 ∨ off = 0x14#8 ∨ off = 0x18#8 := by
  simp [mappedOffsets]

theorem mem_namedOps {op : Byte} : op ∈ namedOps ↔
    op = 0x00#8 ∨ op = 0x01#8 ∨ op = 0x02#8 ∨ op = 0x03#8 ∨ op = 0x10#8 := by
  simp [namedOps]

/-- The reserved slots are the aligned offsets that hold no register (R30, R146). -/
theorem slotReserved_iff (off : Offset) : slotReserved off = true ↔ offLow off = 0#2 ∧ off ∉ mappedOffsets := by
  revert off
  decide

/-- A CMD write whose OP names no operation is ILLEGAL_CMD (R65). -/
theorem decodeCmd_of_reserved {d : Word} (h : opField d ∉ namedOps) : decodeCmd d = .illegalCmd (opField d) := by
  simp only [mem_namedOps, not_or] at h
  simp [decodeCmd, h]

/-- A write to an offset that holds no register goes to a reserved slot (R146). -/
theorem decodeWrite_of_unmapped {off : Offset} (h : off ∉ mappedOffsets) (d : Word) : decodeWrite off d = .wrRsv off := by
  simp only [mem_mappedOffsets, not_or] at h
  simp [decodeWrite, h]

/-- A read of an offset that holds no register goes to a reserved slot (R146). -/
theorem decodeRead_of_unmapped {off : Offset} (h : off ∉ mappedOffsets) : decodeRead off = .rdRsv off := by
  simp only [mem_mappedOffsets, not_or] at h
  simp [decodeRead, h]

/-! ### Decode answers well-formed terms -/

/-- A CMD write is a named operation or carries a reserved OP (R65). -/
theorem decodeCmd_wf (d : Word) : (decodeCmd d).WellFormed := by
  by_cases h : opField d ∈ namedOps
  · obtain h | h | h | h | h := mem_namedOps.mp h
    all_goals simp [decodeCmd, h, Instr.WellFormed, Instr.wf]
  · rw [decodeCmd_of_reserved h]
    simpa [Instr.WellFormed, Instr.wf] using h

/-- An aligned write goes to a register or to a reserved slot (R146). -/
theorem decodeWrite_wf {off : Offset} (halign : offLow off = 0#2) (d : Word) : (decodeWrite off d).WellFormed := by
  by_cases h : off ∈ mappedOffsets
  · obtain rfl | rfl | rfl | rfl | rfl | rfl | rfl := mem_mappedOffsets.mp h
    · exact decodeCmd_wf d
    all_goals rfl
  · rw [decodeWrite_of_unmapped h]
    exact (slotReserved_iff off).mpr ⟨halign, h⟩

/-- An aligned read goes to a register or to a reserved slot (R146). -/
theorem decodeRead_wf {off : Offset} (halign : offLow off = 0#2) : (decodeRead off).WellFormed := by
  by_cases h : off ∈ mappedOffsets
  · obtain rfl | rfl | rfl | rfl | rfl | rfl | rfl := mem_mappedOffsets.mp h
    all_goals rfl
  · rw [decodeRead_of_unmapped h]
    exact (slotReserved_iff off).mpr ⟨halign, h⟩

/-- A word fails a check of the bus, or is an aligned write or an aligned read (R45, R67). -/
theorem decode_cases (w : TW) :
    (twSize w ≠ 2#2 ∨ offLow (twAddr w) ≠ 0#2) ∨
    (offLow (twAddr w) = 0#2 ∧ decode w = decodeWrite (twAddr w) (twData w)) ∨
    (offLow (twAddr w) = 0#2 ∧ decode w = decodeRead (twAddr w)) := by
  by_cases hbad : twSize w ≠ 2#2 ∨ offLow (twAddr w) ≠ 0#2
  · exact .inl hbad
  · obtain ⟨hsize, halign⟩ : twSize w = 2#2 ∧ offLow (twAddr w) = 0#2 := by simpa using hbad
    cases hwr : twWrite w with
    | true => exact .inr (.inl ⟨halign, decode_of_alignedWrite hsize halign hwr⟩)
    | false => exact .inr (.inr ⟨halign, decode_of_alignedRead hsize halign hwr⟩)

/-- A misaligned 32-bit access has the alignment its operation names (R44). -/
theorem decode_wf_of_misaligned {w : TW} (hsize : twSize w = 2#2) (halign : offLow (twAddr w) ≠ 0#2) :
    (decode w).WellFormed := by
  obtain h | h | h | h := twoBits_cases (offLow (twAddr w))
  · exact absurd h halign
  all_goals
    have hbits : (twAddr w).extractLsb' 0 2 = _ := h
    simp [decode, decodeFields, hsize, h, Instr.WellFormed, Instr.wf, hbits]

/-- What decode answers is well-formed: a size error always is, and the other accesses by their offset (R65, R44, R146). -/
theorem decode_wf (w : TW) : (decode w).WellFormed := by
  obtain hbad | ⟨halign, e⟩ | ⟨halign, e⟩ := decode_cases w
  · by_cases hsize : twSize w = 2#2
    · exact decode_wf_of_misaligned hsize (hbad.resolve_left (not_not_intro hsize))
    · obtain ⟨we, off, e⟩ | ⟨we, off, e⟩ | ⟨we, off, e⟩ := decode_of_badSize hsize
      all_goals rw [e]; rfl
  · exact e ▸ decodeWrite_wf halign (twData w)
  · exact e ▸ decodeRead_wf halign

/-! ### Decode of encode -/

/-- A composed aligned write decodes by its offset. -/
theorem decode_encodeWrite {off : Offset} (halign : offLow off = 0#2) (d : Word) :
    decode (encodeWrite off d) = decodeWrite off d := by
  simp [encodeWrite, decodeFields, halign]

/-- A composed aligned read decodes by its offset. -/
theorem decode_encodeRead {off : Offset} (halign : offLow off = 0#2) : decode (encodeRead off) = decodeRead off := by
  simp [encodeRead, decodeFields, halign]

/-- A composed CMD write decodes by the OP and the OFFSET put into it (R61, R62). -/
theorem decode_encodeWrite_cmd (op : Byte) (offset : Half) :
    decode (encodeWrite 0x00#8 (cmdData op offset)) = decodeCmd (cmdData op offset) :=
  decode_encodeWrite rfl _

/-- Decode of encode is the identity on the terms some word decodes to. -/
theorem decode_encode {i : Instr} (hi : i.WellFormed) : decode (encode i) = i := by
  cases i
  case nop | encFlash | encReset | encLoad | crcInit => simp [encode, decode_encodeWrite_cmd, decodeCmd]
  case illegalCmd op =>
    have hop : opField (cmdData op 0#16) ∉ namedOps := by simpa [Instr.WellFormed, Instr.wf] using hi
    rw [encode, decode_encodeWrite_cmd, decodeCmd_of_reserved hop, opField_cmdData]
  case crcByte byte => exact (decode_encodeWrite rfl _).trans (congrArg Instr.crcByte (byteField_setWidth byte))
  case rdCmd | rdData | rdCrc | rdLen | rdStatus | rdFrameLo | rdFrameHi => exact decode_encodeRead rfl
  case clrErr | wrCrcIgn | wrLenIgn | wrFrameLoIgn | wrFrameHiIgn => exact decode_encodeWrite rfl _
  case rdRsv off =>
    obtain ⟨halign, hun⟩ := (slotReserved_iff off).mp hi
    exact (decode_encodeRead halign).trans (decodeRead_of_unmapped hun)
  case wrRsv off =>
    obtain ⟨halign, hun⟩ := (slotReserved_iff off).mp hi
    exact (decode_encodeWrite halign _).trans (decodeWrite_of_unmapped hun _)
  case buserrSize8 | buserrSize16 | buserrSizeRsv => simp [encode, decodeFields]
  case buserrAlign1 we off | buserrAlign2 we off | buserrAlign3 we off =>
    replace hi := beq_iff_eq.mp hi
    simp [encode, decodeFields, offLow, hi]

end Sys2Proof

namespace Sys2Proof.Proofs

open Sys2Proof.Machine

/-- Settles O1, by the constructor: the canonical word has the fields that lead the decoder to it. -/
theorem decodeOfEncodeIsIdentity : Obligations.DecodeOfEncodeIsIdentity := fun _ hi => decode_encode hi

/-- Settles O3, by the checks of R45 in their order, then by the offset and the OP. -/
theorem decodedOperationIsWellFormed : Obligations.DecodedOperationIsWellFormed := decode_wf

/-- Settles O4: the decoder evaluates on each of the nine words. -/
theorem writtenOutWordsDecode : Obligations.WrittenOutWordsDecode := by
  unfold Obligations.WrittenOutWordsDecode
  decide

end Sys2Proof.Proofs
end

section
/-! Which rows of the opcode table a word selects (30_encoding.md R66). -/

namespace Sys2Proof

open Laws.SelectsRow

/-! ### The row of the decoded operation is selected -/

/-- The mask 0xFF of a word's data tests its OP (R31, R66). -/
theorem and_opMask (d : Word) : d &&& 0xFF#32 = (opField d).setWidth 32 := by
  apply BitVec.eq_of_toNat_eq
  simp only [opField, BitVec.toNat_and, BitVec.toNat_ofNat, BitVec.toNat_setWidth, BitVec.extractLsb'_toNat,
    Nat.shiftRight_zero]
  rw [show 255 % 2 ^ 32 = 2 ^ 8 - 1 from rfl, Nat.and_two_pow_sub_one_eq_mod]
  omega

/-- A row that tests the size, the direction, the offset and the OP. -/
theorem selects_op {d : Word} {op : Byte} {mtch : TW} {p : Nat} (et : mtch = mkTW 2#2 true 0x00#8 (op.setWidth 32))
    (hop : opField d = op) : (Row.mk mtch 0x7FF000000FF#43 p).selects (mkTW 2#2 true 0x00#8 d) = true :=
  selects_mkTW (ms := 3#2) (mw := true) (ma := 0xFF#8) (md := 0xFF#32) (by decide) et rfl rfl rfl
    (by rw [and_opMask, hop])

/-- A row that tests the size, the direction and the alignment. -/
theorem selects_slot {we : Bool} {off : Offset} {d : Word} {mtch : TW} {p : Nat}
    (et : mtch = mkTW 2#2 we 0x00#8 0#32) (halign : offLow off = 0#2) :
    (Row.mk mtch 0x70300000000#43 p).selects (mkTW 2#2 we off d) = true :=
  selects_mkTW (ms := 3#2) (mw := true) (ma := 3#8) (md := 0#32) (by decide) et rfl (Bool.and_true we)
    (and_low_of halign) BitVec.and_zero

/-- A row that tests the size and the alignment. -/
theorem selects_misaligned {we : Bool} {off : Offset} {d : Word} {k : BitVec 2} {mtch : TW} {p : Nat}
    (et : mtch = mkTW 2#2 false (k.setWidth 8) 0#32) (hk : offLow off = k) :
    (Row.mk mtch 0x60300000000#43 p).selects (mkTW 2#2 we off d) = true :=
  selects_mkTW (ms := 3#2) (mw := false) (ma := 3#8) (md := 0#32) (by decide) et rfl (Bool.and_false we)
    (and_low_of hk) BitVec.and_zero

theorem selects_rowOf_decodeCmd (d : Word) : (rowOf (decodeCmd d)).selects (mkTW 2#2 true 0x00#8 d) = true := by
  unfold decodeCmd
  repeat' split
  case isTrue h | isTrue h | isTrue h | isTrue h | isTrue h => exact selects_op (by decide) h
  exact selects_register (by decide)

theorem selects_rowOf_decodeWrite {off : Offset} (halign : offLow off = 0#2) (d : Word) :
    (rowOf (decodeWrite off d)).selects (mkTW 2#2 true off d) = true := by
  by_cases h : off ∈ mappedOffsets
  · obtain rfl | rfl | rfl | rfl | rfl | rfl | rfl := mem_mappedOffsets.mp h
    · exact selects_rowOf_decodeCmd d
    all_goals exact selects_register (by decide)
  · rw [decodeWrite_of_unmapped h]
    exact selects_slot (by decide) halign

theorem selects_rowOf_decodeRead {off : Offset} (halign : offLow off = 0#2) (d : Word) :
    (rowOf (decodeRead off)).selects (mkTW 2#2 false off d) = true := by
  by_cases h : off ∈ mappedOffsets
  · obtain rfl | rfl | rfl | rfl | rfl | rfl | rfl := mem_mappedOffsets.mp h
    all_goals exact selects_register (by decide)
  · rw [decodeRead_of_unmapped h]
    exact selects_slot (by decide) halign

/-- Any four fields select the row of what they decode to, by the checks of R45 in their order. -/
theorem selects_rowOf_decodeFields (size : BitVec 2) (we : Bool) (off : Offset) (d : Word) :
    (rowOf (decodeFields size we off d)).selects (mkTW size we off d) = true := by
  obtain rfl | rfl | rfl | rfl := twoBits_cases size
  case inr.inr.inl =>
    obtain h | h | h | h := twoBits_cases (offLow off)
    · cases we with
      | true => simpa [decodeFields, h] using selects_rowOf_decodeWrite h d
      | false => simpa [decodeFields, h] using selects_rowOf_decodeRead h d
    all_goals
      simp only [decodeFields, h, rowOf]
      exact selects_misaligned (by decide) h
  all_goals exact selects_size (by decide)

/-- A word selects the row of the operation it decodes to (R66). -/
theorem selects_rowOf_decode (w : TW) : (rowOf (decode w)).selects w = true := by
  have h := selects_rowOf_decodeFields (twSize w) (twWrite w) (twAddr w) (twData w)
  rwa [mkTW_fields] at h

/-! ### No selected row has a lower priority number -/

theorem rowOf_mem_opTable (i : Instr) : rowOf i ∈ opTable := by
  cases i
  all_goals simp [opTable, oneOfEach, rowOf]

/-- Two rows that one word selects ask for the same bits wherever both test one. -/
theorem overlap_of_selects {r q : Row} {w : TW} (hr : r.selects w = true) (hq : q.selects w = true) :
    r.mtch &&& q.mask = q.mtch &&& r.mask := by
  rw [← beq_iff_eq.mp hr, ← beq_iff_eq.mp hq]
  ac_rfl

/-- Two rows of one priority do not overlap (R66). -/
theorem eq_of_overlap_of_priority : ∀ r ∈ opTable, ∀ q ∈ opTable,
    r.mtch &&& q.mask = q.mtch &&& r.mask → r.priority = q.priority → r = q := by
  decide

/-- Only the rows of priority 3 and 4 have an overlapping row before them, which asks for a named OP or for the offset of
a register (R65, R66). -/
theorem overlap_before : ∀ r ∈ opTable, ∀ q ∈ opTable,
    r.mtch &&& q.mask = q.mtch &&& r.mask → r.priority < q.priority →
      (q.priority = 3 ∧ opField (twData r.mask) = 0xFF#8 ∧ opField (twData r.mtch) ∈ namedOps) ∨
      (q.priority = 4 ∧ twAddr r.mask = 0xFF#8 ∧ twAddr r.mtch ∈ mappedOffsets) := by
  decide

/-- The bus errors have priority 1 (R66). -/
theorem priority_of_isBusError {i : Instr} (h : i.isBusError = true) : (rowOf i).priority = 1 := by
  cases i
  case buserrSize8 | buserrSize16 | buserrSizeRsv | buserrAlign1 | buserrAlign2 | buserrAlign3 => rfl
  all_goals cases h

/-- A CMD write takes a row of priority 3 only where its OP names no operation. -/
theorem priority_decodeCmd (d : Word) :
    (rowOf (decodeCmd d)).priority ≤ 2 ∨ (rowOf (decodeCmd d)).priority = 3 ∧ opField d ∉ namedOps := by
  by_cases h : opField d ∈ namedOps
  · obtain h | h | h | h | h := mem_namedOps.mp h
    all_goals simp [decodeCmd, h, rowOf]
  · exact .inr ⟨by rw [decodeCmd_of_reserved h]; rfl, h⟩

/-- A write takes a row of priority 4 only at the offset of no register. -/
theorem priority_decodeWrite (off : Offset) (d : Word) :
    (rowOf (decodeWrite off d)).priority ≤ 2 ∨ ((rowOf (decodeWrite off d)).priority = 3 ∧ opField d ∉ namedOps) ∨
      ((rowOf (decodeWrite off d)).priority = 4 ∧ off ∉ mappedOffsets) := by
  by_cases h : off ∈ mappedOffsets
  · obtain rfl | rfl | rfl | rfl | rfl | rfl | rfl := mem_mappedOffsets.mp h
    · exact (priority_decodeCmd d).imp_right .inl
    all_goals exact .inl (Nat.le_refl 2)
  · exact .inr (.inr ⟨by rw [decodeWrite_of_unmapped h]; rfl, h⟩)

/-- A read takes a row of priority 4 only at the offset of no register. -/
theorem priority_decodeRead (off : Offset) :
    (rowOf (decodeRead off)).priority ≤ 2 ∨ (rowOf (decodeRead off)).priority = 4 ∧ off ∉ mappedOffsets := by
  by_cases h : off ∈ mappedOffsets
  · obtain rfl | rfl | rfl | rfl | rfl | rfl | rfl := mem_mappedOffsets.mp h
    all_goals exact .inl (Nat.le_refl 2)
  · exact .inr ⟨by rw [decodeRead_of_unmapped h]; rfl, h⟩

/-- A word takes a row of priority 3 or 4 only where it names no operation, or no register (R65, R146). -/
theorem priority_decode (w : TW) :
    (rowOf (decode w)).priority ≤ 2 ∨ ((rowOf (decode w)).priority = 3 ∧ opField (twData w) ∉ namedOps) ∨
      ((rowOf (decode w)).priority = 4 ∧ twAddr w ∉ mappedOffsets) := by
  obtain hbad | ⟨-, e⟩ | ⟨-, e⟩ := decode_cases w
  · have hone := priority_of_isBusError (decode_isBusError hbad)
    exact .inl (by omega)
  · exact e ▸ priority_decodeWrite (twAddr w) (twData w)
  · exact e ▸ (priority_decodeRead (twAddr w)).imp_right .inr

/-- No row that a word selects comes before the one it takes (R66). -/
theorem priority_decode_le {w : TW} {r : Row} (hr : r ∈ opTable) (hsel : r.selects w = true) :
    (rowOf (decode w)).priority ≤ r.priority := by
  refine Nat.not_lt.mp fun hlt => ?_
  have hmtch : w &&& r.mask = r.mtch := beq_iff_eq.mp hsel
  have hbefore := overlap_before r hr _ (rowOf_mem_opTable (decode w))
    (overlap_of_selects hsel (selects_rowOf_decode w)) hlt
  rw [← hmtch, twData_and, twAddr_and, opField_and] at hbefore
  obtain ⟨h3, hmask, hnamed⟩ | ⟨h4, hmask, hmapped⟩ := hbefore
  · rw [hmask, and_ff] at hnamed
    obtain h2 | ⟨-, hreserved⟩ | ⟨h4, -⟩ := priority_decode w
    · omega
    · exact hreserved hnamed
    · omega
  · rw [hmask, and_ff] at hmapped
    obtain h2 | ⟨h3, -⟩ | ⟨-, hunmapped⟩ := priority_decode w
    · omega
    · omega
    · exact hunmapped hmapped

end Sys2Proof

namespace Sys2Proof.Proofs

open Sys2Proof.Machine

/-- Settles O2: rows that one word selects overlap, overlapping rows of one priority are the same, and none comes before the
decoded operation's. -/
theorem decodeTakesTheLowestPriorityRow : Obligations.DecodeTakesTheLowestPriorityRow := by
  refine ⟨fun w => ⟨rowOf_mem_opTable _, selects_rowOf_decode w, fun r hr hsel hne => ?_⟩, fun w r hr q hq hrw hqw hp => ?_⟩
  · refine Nat.lt_of_le_of_ne (priority_decode_le hr hsel) fun hp => hne ?_
    exact eq_of_overlap_of_priority r hr _ (rowOf_mem_opTable _) (overlap_of_selects hsel (selects_rowOf_decode w)) hp.symm
  · exact eq_of_overlap_of_priority r hr q hq (overlap_of_selects hrw hqw) hp

end Sys2Proof.Proofs
end

section
/-! The bits of a word that its operation reads (30_encoding.md R61, R68; 20_memory.md R43, R44). -/

namespace Sys2Proof

/-! ### What the acting bits hold -/

theorem byteField_and (d d' : Word) : byteField (d &&& d') = byteField d &&& byteField d' := BitVec.extractLsb'_and

theorem offsetField_and (d d' : Word) : offsetField (d &&& d') = offsetField d &&& offsetField d' := BitVec.extractLsb'_and

/-- Every operation reads SIZE (R45). -/
theorem twSize_actingBits (i : Instr) : twSize i.actingBits = 3#2 := by
  cases i
  all_goals simp [Instr.actingBits, twSize]

/-- An access that passes the checks of the bus reads W and ADDR whole. -/
theorem actingBits_of_not_isBusError {i : Instr} (h : i.isBusError = false) :
    twWrite i.actingBits = true ∧ twAddr i.actingBits = 0xFF#8 := by
  cases i
  case buserrSize8 | buserrSize16 | buserrSizeRsv | buserrAlign1 | buserrAlign2 | buserrAlign3 => cases h
  all_goals simp [Instr.actingBits, twWrite, twAddr]

/-- A misaligned 32-bit access reads SIZE and `off[1:0]` (R44). -/
theorem actingBits_of_misaligned {w : TW} (hsize : twSize w = 2#2) (halign : offLow (twAddr w) ≠ 0#2) :
    (decode w).actingBits = 0x60300000000#43 := by
  obtain h | h | h | h := twoBits_cases (offLow (twAddr w))
  · exact absurd h halign
  all_goals simp [decode, decodeFields, hsize, h, Instr.actingBits]

/-- A CMD write reads its OP (R61). -/
theorem opField_actingBits_decodeCmd (d : Word) : opField (twData (decodeCmd d).actingBits) = 0xFF#8 := by
  have hcmd : (decodeCmd d).actingBits = 0x7FF000000FF#43 ∨ (decodeCmd d).actingBits = 0x7FFFFFF00FF#43 := by
    unfold decodeCmd
    repeat' split
    all_goals simp [Instr.actingBits]
  obtain e | e := hcmd
  all_goals rw [e]; decide

/-! ### Words that agree on the acting bits -/

variable {w w' : TW} {d d' : Word}

/-- A CMD write is decoded by its OP, and ENC_FLASH by its OFFSET too (R61, R62). -/
theorem decodeCmd_congr (h : d &&& twData (decodeCmd d).actingBits = d' &&& twData (decodeCmd d).actingBits) :
    decodeCmd d' = decodeCmd d := by
  have hop : opField d = opField d' := by
    simpa [opField_and, opField_actingBits_decodeCmd, and_ff] using congrArg opField h
  by_cases hflash : opField d = 0x01#8
  · have hoffset : offsetField d = offsetField d' := by
      have e : decodeCmd d = .encFlash (offsetField d) := by simp [decodeCmd, hflash]
      have hmask : offsetField (twData (decodeCmd d).actingBits) = 0xFFFF#16 := by rw [e, Instr.actingBits]; decide
      have hall (x : Half) : x &&& 0xFFFF#16 = x := BitVec.and_allOnes
      simpa [offsetField_and, hmask, hall] using congrArg offsetField h
    rw [decodeCmd, decodeCmd, hop, hoffset]
  · simp only [decodeCmd, ← hop, hflash, if_false]

/-- Two words that agree on the bits the first one's check reads fail it both (R43, R44). -/
theorem decode_isBusError_congr (h : w &&& (decode w).actingBits = w' &&& (decode w).actingBits)
    (hbad : twSize w ≠ 2#2 ∨ offLow (twAddr w) ≠ 0#2) : (decode w').isBusError = true := by
  have hsize : twSize w = twSize w' := by
    simpa [twSize_actingBits, and_three] using congrArg twSize h
  by_cases h32 : twSize w = 2#2
  · have hmis := hbad.resolve_left (not_not_intro h32)
    have hlow : offLow (twAddr w) = offLow (twAddr w') := by
      have hmask : offLow (twAddr (decode w).actingBits) = 3#2 := by rw [actingBits_of_misaligned h32 hmis]; decide
      simpa [offLow_and, hmask, and_three] using congrArg (offLow ∘ twAddr) h
    exact decode_isBusError (.inr (hlow ▸ hmis))
  · exact decode_isBusError (.inl (hsize ▸ h32))

/-- A read is no bus error. -/
theorem Instr.isBusError_of_isRead {i : Instr} (h : i.isRead = true) : i.isBusError = false := by
  cases i
  case rdCmd | rdData | rdCrc | rdLen | rdStatus | rdFrameLo | rdFrameHi | rdRsv => rfl
  all_goals cases h

/-- Two words that agree on the bits the first one reads, where that one is no bus error, agree on SIZE, W and ADDR. -/
theorem fields_congr (h : w &&& (decode w).actingBits = w' &&& (decode w).actingBits)
    (hok : (decode w).isBusError = false) : twSize w = twSize w' ∧ twWrite w = twWrite w' ∧ twAddr w = twAddr w' := by
  obtain ⟨hwrite, haddr⟩ := actingBits_of_not_isBusError hok
  exact ⟨by simpa [twSize_actingBits, and_three] using congrArg twSize h,
    by simpa [hwrite] using congrArg twWrite h, by simpa [haddr, and_ff] using congrArg twAddr h⟩

/-! ### What such words do -/

namespace Machine

/-- CLR_ERR reads bits 2 and 3 of its operand (R35, R142). -/
theorem exec_clrErr_congr {m m' : Word} (h : m &&& 0x0000000C#32 = m' &&& 0x0000000C#32) (s : State) :
    exec (.clrErr m') s = exec (.clrErr m) s := by
  have h2 : m.getLsbD 2 = m'.getLsbD 2 := by simpa using congrArg (·.getLsbD 2) h
  have h3 : m.getLsbD 3 = m'.getLsbD 3 := by simpa using congrArg (·.getLsbD 3) h
  simp only [exec, execClrErr, State.clearErrors, h2, h3]

/-- Two writes to one offset that agree on the data bits the first one's operation reads do the same (R61 to R63, R68). -/
theorem exec_decodeWrite_congr {off : Offset}
    (h : d &&& twData (decodeWrite off d).actingBits = d' &&& twData (decodeWrite off d).actingBits) (s : State) :
    exec (decodeWrite off d') s = exec (decodeWrite off d) s := by
  by_cases hoff : off ∈ mappedOffsets
  · obtain rfl | rfl | rfl | rfl | rfl | rfl | rfl := mem_mappedOffsets.mp hoff
    · exact congrArg (exec · s) (decodeCmd_congr h)
    · have hbyte : byteField d = byteField d' := by
        have hmask : byteField (twData (decodeWrite 0x04#8 d).actingBits) = 0xFF#8 := by
          rw [show decodeWrite 0x04#8 d = .crcByte (byteField d) from rfl, Instr.actingBits]
          decide
        simpa only [byteField_and, hmask, and_ff] using congrArg byteField h
      exact congrArg (fun b => exec (.crcByte b) s) hbyte.symm
    · rfl
    · rfl
    · have hmask : twData (decodeWrite 0x10#8 d).actingBits = 0x0000000C#32 := by
        rw [show decodeWrite 0x10#8 d = .clrErr d from rfl, Instr.actingBits]
        decide
      rw [hmask] at h
      exact exec_clrErr_congr h s
    all_goals rfl
  · rw [decodeWrite_of_unmapped hoff, decodeWrite_of_unmapped hoff]

/-- Two words that agree on the bits the first one's operation reads do the same (R61, R68). -/
theorem exec_decode_congr (h : w &&& (decode w).actingBits = w' &&& (decode w).actingBits) (s : State) :
    exec (decode w') s = exec (decode w) s := by
  by_cases hbad : twSize w ≠ 2#2 ∨ offLow (twAddr w) ≠ 0#2
  · rw [exec_of_isBusError (decode_isBusError hbad), exec_of_isBusError (decode_isBusError_congr h hbad)]
  obtain ⟨hsize, halign⟩ : twSize w = 2#2 ∧ offLow (twAddr w) = 0#2 := by simpa using hbad
  cases hwr : twWrite w with
  | true =>
    have e := decode_of_alignedWrite hsize halign hwr
    obtain ⟨hs, hw, ha⟩ := fields_congr h (e ▸ (decodeWrite_isWrite _ _).2)
    have e' : decode w' = decodeWrite (twAddr w) (twData w') :=
      ha ▸ decode_of_alignedWrite (hs ▸ hsize) (ha ▸ halign) (hw ▸ hwr)
    have hdata := congrArg twData h
    rw [twData_and, twData_and, e] at hdata
    rw [e, e']
    exact exec_decodeWrite_congr hdata s
  | false =>
    have e := decode_of_alignedRead hsize halign hwr
    obtain ⟨hs, hw, ha⟩ := fields_congr h (e ▸ Instr.isBusError_of_isRead (decodeRead_isRead _))
    rw [e, decode_of_alignedRead (hs ▸ hsize) (ha ▸ halign) (hw ▸ hwr), ha]

end Machine

end Sys2Proof

namespace Sys2Proof.Proofs

open Sys2Proof.Machine

/-- Settles O5, by the checks of R45: two words that agree on the acting bits fail them alike, and two that pass them agree
on SIZE, W, ADDR and the data bits their operation reads. -/
theorem ignoredBitsHaveNoEffect : Obligations.IgnoredBitsHaveNoEffect :=
  fun _ _ s h => exec_decode_congr h s

end Sys2Proof.Proofs
end

section
/-! The assembler's forms (30_encoding.md R70): the base word of an access with the operands in place, and when a line is
refused. -/

namespace Sys2Proof

/-! ### Operands in place -/

/-- A word is its base word with ADDR and DATA placed in it (R60, R70). -/
theorem mkTW_eq_or (size : BitVec 2) (we : Bool) (off : Offset) (d : Word) :
    mkTW size we off d = mkTW size we 0x00#8 0#32 ||| (off.setWidth 43 <<< 32) ||| d.setWidth 43 := by
  apply BitVec.eq_of_getLsbD_eq
  intro i hi
  simp only [mkTW, BitVec.getLsbD_append, BitVec.getLsbD_or, BitVec.getLsbD_shiftLeft, BitVec.getLsbD_setWidth]
  by_cases h32 : i < 32
  · simp [h32, hi]
  · have hd : d.getLsbD i = false := BitVec.getLsbD_of_ge d i (by omega)
    by_cases h40 : i - 32 < 8
    · have h43 : i - 32 < 43 := by omega
      simp [h32, h40, h43, hd, hi]
    · have hoff : off.getLsbD (i - 32) = false := BitVec.getLsbD_of_ge off _ (by omega)
      simp [h32, h40, hd, hoff]

/-- A CMD write's data is its OP with OFFSET placed in it (R31, R62). -/
theorem setWidth_cmdData (op : Byte) (offset : Half) :
    (cmdData op offset).setWidth 43 = (offset.setWidth 43 <<< 16) ||| op.setWidth 43 := by
  apply BitVec.eq_of_getLsbD_eq
  intro i hi
  simp only [cmdData, BitVec.getLsbD_append, BitVec.getLsbD_or, BitVec.getLsbD_shiftLeft, BitVec.getLsbD_setWidth]
  by_cases h8 : i < 8
  · simp [h8, hi, show i < 16 by omega]
  · have hop : op.getLsbD i = false := BitVec.getLsbD_of_ge op i (by omega)
    by_cases h16 : i < 16
    · simp [h8, h16, hop, show i - 8 < 8 by omega]
    · have h43 : i - 16 < 43 := by omega
      have hhigh : ¬ i - 8 < 8 := by omega
      simp [h8, h16, hop, hi, h43, hhigh, Nat.sub_sub]

/-- A word whose ADDR is in its base, with DATA placed in it. -/
theorem mkTW_eq_or_data (size : BitVec 2) (we : Bool) (off : Offset) (d : Word) :
    mkTW size we off d = mkTW size we off 0#32 ||| d.setWidth 43 := by
  rw [mkTW_eq_or size we off d, mkTW_eq_or size we off 0#32]
  simp

namespace Machine

/-! ### Operands in range, or refused -/

theorem fieldOf_eq_ok {w n : Nat} (h : n < 2 ^ w) : fieldOf w n = .ok (BitVec.ofNat w n) := if_pos h

theorem fieldOf_eq_error {w n : Nat} (h : ¬ n < 2 ^ w) : fieldOf w n = .error .outOfRange := if_neg h

/-- One operand and its word, exactly when the operand fits its field (R70). -/
theorem withField_eq (w n : Nat) (f : BitVec w → TW) :
    withField w n f = if n < 2 ^ w then .ok [f (BitVec.ofNat w n)] else .error .outOfRange := by
  split
  case isTrue h => rw [withField, fieldOf_eq_ok h]; rfl
  case isFalse h => rw [withField, fieldOf_eq_error h]; rfl

/-- An access with both operands in place, exactly when both are in range (R70). -/
theorem rawAccess_eq (size : BitVec 2) (we : Bool) (off v : Nat) :
    rawAccess size we off v = if off < 256 ∧ v < 2 ^ 32
      then .ok [mkTW size we 0x00#8 0#32 ||| (BitVec.ofNat 43 off <<< 32) ||| BitVec.ofNat 43 v]
      else .error .outOfRange := by
  by_cases hoff : off < 2 ^ 8
  · by_cases hv : v < 2 ^ 32
    · rw [if_pos ⟨hoff, hv⟩, rawAccess, fieldOf_eq_ok hoff, fieldOf_eq_ok hv]
      dsimp only
      rw [mkTW_eq_or, BitVec.setWidth_ofNat_of_le_of_lt (by decide) hoff,
        BitVec.setWidth_ofNat_of_le_of_lt (by decide) hv]
    · rw [if_neg fun h => hv h.2, rawAccess, fieldOf_eq_ok hoff, fieldOf_eq_error hv]
  · rw [if_neg fun h => hoff h.1, rawAccess, fieldOf_eq_error hoff]

/-- A read has no DATA operand. -/
theorem rawAccess_read_eq (size : BitVec 2) (off : Nat) :
    rawAccess size false off 0 = if off < 256
      then .ok [mkTW size false 0x00#8 0#32 ||| (BitVec.ofNat 43 off <<< 32)] else .error .outOfRange := by
  simp [rawAccess_eq]

theorem assemble_crcByte (b : Nat) : assemble (.crcByte b) =
    if b < 256 then .ok [0x50400000000#43 ||| BitVec.ofNat 43 b] else .error .outOfRange := by
  rw [assemble, withField_eq]
  refine ite_congr rfl (fun hb => ?_) fun _ => rfl
  rw [encode, encodeWrite, mkTW_eq_or_data, BitVec.setWidth_ofNat_of_le_of_lt (by decide) hb,
    BitVec.setWidth_ofNat_of_le_of_lt (by decide) (Nat.lt_trans hb (by decide))]
  rfl

theorem assemble_encFlash (o : Nat) : assemble (.encFlash o) =
    if o < 65536 then .ok [0x50000000001#43 ||| (BitVec.ofNat 43 o <<< 16)] else .error .outOfRange := by
  rw [assemble, withField_eq]
  refine ite_congr rfl (fun ho => ?_) fun _ => rfl
  rw [encode, encodeWrite, mkTW_eq_or_data, setWidth_cmdData, BitVec.setWidth_ofNat_of_le_of_lt (by decide) ho,
    BitVec.or_comm (_ <<< _), ← BitVec.or_assoc]
  rfl

theorem assemble_clrErr (m : Nat) : assemble (.clrErr m) =
    if m < 2 ^ 32 then .ok [0x51000000000#43 ||| BitVec.ofNat 43 m] else .error .outOfRange := by
  rw [assemble, withField_eq]
  refine ite_congr rfl (fun hm => ?_) fun _ => rfl
  rw [encode, encodeWrite, mkTW_eq_or_data, BitVec.setWidth_ofNat_of_le_of_lt (by decide) hm]
  rfl

end Machine

end Sys2Proof

namespace Sys2Proof.Proofs

open Sys2Proof.Machine

/-- Settles O44, by the forms' own lemmas; the forms without an operand evaluate. -/
theorem assemblerPlacesOperandsOrRefusesThem : Obligations.AssemblerPlacesOperandsOrRefusesThem := by
  refine ⟨assemble_crcByte, assemble_encFlash, assemble_clrErr, fun off v => ⟨?_, ?_, ?_⟩, fun off => ⟨?_, ?_, ?_⟩, ?_⟩
  · exact rawAccess_eq 0b10#2 true off v
  · exact rawAccess_eq 0b00#2 true off v
  · exact rawAccess_eq 0b01#2 true off v
  · exact rawAccess_read_eq 0b10#2 off
  · exact rawAccess_read_eq 0b00#2 off
  · exact rawAccess_read_eq 0b01#2 off
  · exact ⟨rfl, rfl, rfl, rfl, rfl, rfl, rfl, rfl, rfl, rfl, rfl, rfl, rfl⟩

end Sys2Proof.Proofs
end

section
/-! The pseudo-instructions (30_encoding.md R71) and the lines they stand for. -/

namespace Sys2Proof.Machine

/-! ### A program, line by line -/

variable {l : AsmLine} {ls : List AsmLine} {ws rest : List TW} {e : AsmError}

theorem assembleAll_nil : assembleAll [] = .ok [] := rfl

theorem assembleAll_cons_ok (hl : assemble l = .ok ws) (hls : assembleAll ls = .ok rest) :
    assembleAll (l :: ls) = .ok (ws ++ rest) := by
  rw [assembleAll, hl, hls]

/-- The first line that is refused refuses the program. -/
theorem assembleAll_cons_error (hl : assemble l = .error e) : assembleAll (l :: ls) = .error e := by
  rw [assembleAll, hl]

/-- A line that assembles before a refused rest does not save the program. -/
theorem assembleAll_cons_error_tail (hl : assemble l = .ok ws) (hls : assembleAll ls = .error e) :
    assembleAll (l :: ls) = .error e := by
  rw [assembleAll, hl, hls]

/-! ### CRC_BYTES and CRC_STR -/

/-- CRC_BYTES is one CRC_BYTE line for each number. -/
theorem crcByteWords_eq_assembleAll (bs : List Nat) : crcByteWords 256 bs = assembleAll (bs.map .crcByte) := by
  induction bs with
  | nil => rfl
  | cons b bs ih =>
    rw [crcByteWords, ih, List.map_cons]
    by_cases hb : b < 256
    · have hl : assemble (.crcByte b) = .ok [encode (.crcByte (BitVec.ofNat 8 b))] := (withField_eq 8 b _).trans (if_pos hb)
      rw [if_pos hb]
      cases hrest : assembleAll (bs.map .crcByte) with
      | ok rest => exact (assembleAll_cons_ok hl hrest).symm
      | error e => exact (assembleAll_cons_error_tail hl hrest).symm
    · have hl : assemble (.crcByte b) = .error .outOfRange := (withField_eq 8 b _).trans (if_neg hb)
      rw [if_neg hb]
      exact (assembleAll_cons_error hl).symm

/-- The bound plays no part where every number is below it. -/
theorem crcByteWords_congr {m n : Nat} {bs : List Nat} (hm : ∀ b ∈ bs, b < m) (hn : ∀ b ∈ bs, b < n) :
    crcByteWords m bs = crcByteWords n bs := by
  induction bs with
  | nil => rfl
  | cons b bs ih =>
    obtain ⟨hbm, hbsm⟩ := List.forall_mem_cons.mp hm
    obtain ⟨hbn, hbsn⟩ := List.forall_mem_cons.mp hn
    rw [crcByteWords, crcByteWords, if_pos hbm, if_pos hbn, ih hbsm hbsn]

/-! ### REPEAT and PAGE -/

/-- A repeated line gives its words as often. -/
theorem assembleAll_replicate (n : Nat) (h : assemble l = .ok ws) :
    assembleAll (List.replicate n l) = .ok (List.replicate n ws).flatten := by
  induction n with
  | zero => rfl
  | succ n ih => exact assembleAll_cons_ok h ih

/-- PAGE is CRC_INIT, the payload's bytes and ENC_FLASH; a refused byte or offset refuses both sides. -/
theorem assemble_page (o : Nat) (bs : List Nat) :
    assemble (.page o bs) = assembleAll [.crcInit, .crcBytes bs, .encFlash o] := by
  have hinit : assemble .crcInit = .ok [encode .crcInit] := rfl
  rw [assemble]
  cases hbs : crcByteWords 256 bs with
  | error e =>
    have hbytes : assemble (.crcBytes bs) = .error e := hbs
    exact (assembleAll_cons_error_tail hinit (assembleAll_cons_error hbytes)).symm
  | ok ws =>
    have hbytes : assemble (.crcBytes bs) = .ok ws := hbs
    by_cases ho : o < 2 ^ 16
    · have hflash : assemble (.encFlash o) = .ok [encode (.encFlash (BitVec.ofNat 16 o))] :=
        (withField_eq 16 o _).trans (if_pos ho)
      rw [fieldOf_eq_ok ho]
      exact (assembleAll_cons_ok hinit (assembleAll_cons_ok hbytes (assembleAll_cons_ok hflash assembleAll_nil))).symm
    · have hflash : assemble (.encFlash o) = .error .outOfRange := (withField_eq 16 o _).trans (if_neg ho)
      rw [fieldOf_eq_error ho]
      exact (assembleAll_cons_error_tail hinit (assembleAll_cons_error_tail hbytes (assembleAll_cons_error hflash))).symm

end Sys2Proof.Machine

namespace Sys2Proof.Proofs

open Sys2Proof.Machine

/-- Settles O45, a clause per pseudo-instruction; CRC_STR of ASCII text is CRC_BYTES of its codes, which are bytes. -/
theorem pseudoInstructionsExpand : Obligations.PseudoInstructionsExpand := by
  refine ⟨crcByteWords_eq_assembleAll, fun cs hcs => ?_, fun n l ws h => ?_, assemble_page, rfl, rfl⟩
  · have hbytes : ∀ c ∈ cs, c < 256 := fun c hc => Nat.lt_trans (hcs c hc) (by decide)
    exact (crcByteWords_congr hcs hbytes).trans (crcByteWords_eq_assembleAll cs)
  · rw [assembleAll_replicate n h, assemble, h]
    rfl

end Sys2Proof.Proofs
end

section
/-! What CRC_ACC, LEN_CNT and LEN_OVF hold of the bytes fed since the last CRC_INIT or block reset (40_crc.md R91). -/

namespace Sys2Proof.Machine

variable {i : Instr} {s t : State} {fed : List Byte}

/-! ### The registers that show the sequence fed -/

/-- Only the three CRC registers show the sequence fed. -/
theorem State.Tracks.congr (hs : s.Tracks fed) (hacc : t.crcAcc = s.crcAcc) (hlen : t.lenCnt = s.lenCnt)
    (hovf : t.lenOvf = s.lenOvf) : t.Tracks fed :=
  ⟨hacc.trans hs.crc, hlen.trans hs.len, hovf.trans hs.ovf⟩

theorem State.SameBlock.tracks (h : s.SameBlock t) (hs : s.Tracks fed) : t.Tracks fed :=
  hs.congr h.crcAcc h.lenCnt h.lenOvf

/-- After block reset no byte was fed (R22, R82). -/
theorem State.tracks_reset : State.reset.Tracks [] := ⟨rfl, rfl, rfl⟩

theorem State.tracks_blockReset (s : State) : s.blockReset.Tracks [] := State.tracks_reset.congr rfl rfl rfl

/-- After CRC_INIT no byte was fed (R87). -/
theorem State.tracks_crcInitialised (s : State) : s.crcInitialised.Tracks [] := ⟨rfl, rfl, rfl⟩

/-! ### One more byte -/

@[simp] theorem crc16_concat (fed : List Byte) (b : Byte) : crc16 (fed ++ [b]) = crcByte (crc16 fed) b :=
  crc16_append fed [b]

/-- LEN_OVF is set from byte 65536 on: the counter is at its last value after 65535 bytes, and by the time it is there again
the flag is set (R25, R88). -/
theorem lenOvfAfterByte_ofNat (n : Nat) :
    lenOvfAfterByte (BitVec.ofNat 16 n) (decide (65536 ≤ n)) = decide (65536 ≤ n + 1) := by
  rw [Bool.eq_iff_iff, lenOvfAfterByte_eq_true_iff, decide_eq_true_iff, decide_eq_true_iff, ← BitVec.toNat_inj,
    BitVec.toNat_ofNat, BitVec.toNat_ofNat]
  omega

/-- CRC_BYTE extends the sequence fed by its byte (R88). -/
theorem State.Tracks.byteFed (hs : s.Tracks fed) (b : Byte) : (s.byteFed b).Tracks (fed ++ [b]) where
  crc := by rw [crc16_concat, ← hs.crc]; rfl
  len := by rw [List.length_append, BitVec.ofNat_add, ← hs.len]; rfl
  ovf := by rw [State.byteFed_lenOvf, hs.len, hs.ovf, lenOvfAfterByte_ofNat, List.length_append]; rfl

/-! ### Every access and every step -/

/-- Every access but CRC_INIT and CRC_BYTE keeps the three registers (R23, R24, R25). -/
theorem exec_crcRegisters_kept (h : exec i s = .next t) (hinit : i ≠ .crcInit) (hbyte : ∀ b, i ≠ .crcByte b) :
    t.crcAcc = s.crcAcc ∧ t.lenCnt = s.lenCnt ∧ t.lenOvf = s.lenOvf := by
  obtain hkept | ⟨hi, -⟩ | ⟨b, hi, -⟩ := exec_crcRegisters_cases h
  · exact hkept
  · exact absurd hi hinit
  · exact absurd hi (hbyte b)

/-- Every access but CRC_INIT and CRC_BYTE keeps the sequence fed (R91). -/
theorem fedAfter_kept (hinit : i ≠ .crcInit) (hbyte : ∀ b, i ≠ .crcByte b) (fed : List Byte) : fedAfter i fed = fed := by
  cases i
  case crcInit => exact absurd rfl hinit
  case crcByte b => exact absurd rfl (hbyte b)
  all_goals rfl

/-- An access leaves registers that show the sequence fed with it (R91). -/
theorem exec_tracks (hs : s.Tracks fed) (h : exec i s = .next t) : t.Tracks (fedAfter i fed) := by
  by_cases hinit : i = .crcInit
  · subst hinit
    cases h
    exact s.tracks_crcInitialised
  by_cases hbyte : ∃ b, i = .crcByte b
  · obtain ⟨b, rfl⟩ := hbyte
    cases h
    exact hs.byteFed b
  · have hbyte' := not_exists.mp hbyte
    obtain ⟨hacc, hlen, hovf⟩ := exec_crcRegisters_kept h hinit hbyte'
    rw [fedAfter_kept hinit hbyte']
    exact hs.congr hacc hlen hovf

/-- A step leaves registers that show the sequence fed with its input (R91, R190). -/
theorem step_tracks (hs : s.Tracks fed) (h : step s = .next t) : t.Tracks (fedAfterInput s.inputs fed) := by
  obtain ⟨hi, rfl⟩ | ⟨rest, hi, rfl⟩ | ⟨r, rest, hi, hexec⟩ | ⟨p, rest, hi, rfl⟩ := step_cases h
  all_goals rw [hi]
  · exact s.sameBlock_idle.tracks hs
  · exact (s.takeInput rest).sameBlock_idle.tracks ((s.sameBlock_takeInput rest).tracks hs)
  · exact exec_tracks ((s.sameBlock_takeInput rest).tracks hs) hexec
  · exact (s.takeInput rest).tracks_blockReset

end Sys2Proof.Machine

namespace Sys2Proof.Proofs

open Sys2Proof.Machine

/-- Settles O26, by the kind of the step and, for an access, whether it is CRC_INIT, CRC_BYTE or neither. -/
theorem registersTrackTheBytesFed : Obligations.RegistersTrackTheBytesFed := fun _ _ _ hs h => step_tracks hs h

/-- Settles O27: the start value, a zero count and no overflow. -/
theorem resetTracksNothingFed : Obligations.ResetTracksNothingFed := State.tracks_reset

end Sys2Proof.Proofs
end

section
/-! CRC_INIT, CRC_BYTE, RD_CRC and RD_LEN (40_crc.md R87 to R90): what a word of each encoding decodes to, and the whole
next state. -/

namespace Sys2Proof

/-! ### Decoding by a register's match and mask (R66) -/

variable {w mtch : TW}

/-- A word that matches an aligned 32-bit write in size, direction and offset decodes by that offset and its own data. -/
theorem decode_of_select_write (h : w &&& 0x7FF00000000#43 = mtch) (hsize : twSize mtch = 2#2)
    (halign : offLow (twAddr mtch) = 0#2) (hwr : twWrite mtch = true) :
    decode w = decodeWrite (twAddr mtch) (twData w) := by
  obtain ⟨es, ew, ea⟩ := select_register h
  rw [← ea] at halign ⊢
  exact decode_of_alignedWrite (es.trans hsize) halign (ew.trans hwr)

/-- A word that matches an aligned 32-bit read in size, direction and offset decodes by that offset. -/
theorem decode_of_select_read (h : w &&& 0x7FF00000000#43 = mtch) (hsize : twSize mtch = 2#2)
    (halign : offLow (twAddr mtch) = 0#2) (hwr : twWrite mtch = false) : decode w = decodeRead (twAddr mtch) := by
  obtain ⟨es, ew, ea⟩ := select_register h
  rw [← ea] at halign ⊢
  exact decode_of_alignedRead (es.trans hsize) halign (ew.trans hwr)

/-- A word that matches a CMD write in size, direction, offset and OP decodes by its data, whose OP is the match's. -/
theorem decode_of_select_command (h : w &&& 0x7FF000000FF#43 = mtch) (hsize : twSize mtch = 2#2)
    (haddr : twAddr mtch = 0x00#8) (hwr : twWrite mtch = true) :
    decode w = decodeCmd (twData w) ∧ opField (twData w) = opField (twData mtch) := by
  obtain ⟨es, ew, ea, eop⟩ := select_command h
  rw [haddr] at ea
  refine ⟨(decode_of_alignedWrite (es.trans hsize) (ea ▸ rfl) (ew.trans hwr)).trans ?_, eop⟩
  rw [ea]
  rfl

/-- BYTE of a word's data, as bits of the word (R60, R63). -/
theorem byteField_twData (w : TW) : byteField (twData w) = w.extractLsb' 0 8 := by
  ext i hi
  simp [byteField, twData]

theorem decode_of_select_crcInit (h : w &&& 0x7FF000000FF#43 = 0x50000000010#43) : decode w = .crcInit := by
  obtain ⟨e, hop⟩ := decode_of_select_command h (by decide) (by decide) (by decide)
  have hinit : opField (twData w) = 0x10#8 := hop.trans (by decide)
  simp [e, decodeCmd, hinit]

theorem decode_of_select_crcByte (h : w &&& 0x7FF00000000#43 = 0x50400000000#43) :
    decode w = .crcByte (w.extractLsb' 0 8) := by
  have haddr : twAddr 0x50400000000#43 = 0x04#8 := by decide
  rw [decode_of_select_write h (by decide) (by decide) (by decide), haddr, ← byteField_twData]
  rfl

theorem decode_of_select_rdCrc (h : w &&& 0x7FF00000000#43 = 0x40800000000#43) : decode w = .rdCrc :=
  (decode_of_select_read h (by decide) (by decide) (by decide)).trans (by decide)

theorem decode_of_select_rdLen (h : w &&& 0x7FF00000000#43 = 0x40C00000000#43) : decode w = .rdLen :=
  (decode_of_select_read h (by decide) (by decide) (by decide)).trans (by decide)

namespace Machine

/-! ### The next state, as the rules write it -/

/-- LEN_OVF after a byte: set when the counter was at its last value, else kept (R88). -/
theorem lenOvfAfterByte_eq_ite (count : Half) (ovf : Bool) :
    lenOvfAfterByte count ovf = if count = 0xFFFF#16 then true else ovf := by
  by_cases h : count = 0xFFFF#16
  · simp [lenOvfAfterByte, h]
  · simp [lenOvfAfterByte, h]

/-- LEN_CNT counts modulo 65536 (R88). -/
theorem half_succ_eq_ofNat (count : Half) : count + 1 = BitVec.ofNat 16 (count.toNat + 1) := by
  rw [BitVec.ofNat_add, BitVec.ofNat_toNat, BitVec.setWidth_eq]
  rfl

/-- CRC_BYTE feeds one byte and leaves everything else (R88). -/
theorem exec_crcByte (b : Byte) (s : State) : exec (.crcByte b) s =
    .next { s with
      crcAcc := crcByte s.crcAcc b
      lenOvf := if s.lenCnt = 0xFFFF#16 then true else s.lenOvf
      lenCnt := BitVec.ofNat 16 (s.lenCnt.toNat + 1)
      reply := .wrote } := by
  rw [← lenOvfAfterByte_eq_ite, ← half_succ_eq_ofNat]
  rfl

/-- A 16-bit register is read zero-extended (R89, R90). -/
theorem half_zeroExtend (x : Half) : x.setWidth 32 = 0x0000#16 ++ x := BitVec.setWidth_eq_append (by decide)

theorem exec_rdCrc (s : State) : exec .rdCrc s = .next { s with reply := .read (0x0000#16 ++ s.crcAcc) } := by
  rw [← half_zeroExtend]
  rfl

theorem exec_rdLen (s : State) : exec .rdLen s = .next { s with reply := .read (0x0000#16 ++ s.lenCnt) } := by
  rw [← half_zeroExtend]
  rfl

end Machine

end Sys2Proof

namespace Sys2Proof.Proofs

open Sys2Proof.Machine

/-- Settles O23: the OP field leads the decoder to CRC_INIT, whose meaning is the record update. -/
theorem crcInitStartsANewComputation : Obligations.CrcInitStartsANewComputation :=
  ⟨fun _ => decode_of_select_crcInit, fun _ => rfl⟩

/-- Settles O24, by the decoding and the next state of CRC_BYTE. -/
theorem crcByteFeedsOneByte : Obligations.CrcByteFeedsOneByte :=
  ⟨fun _ => decode_of_select_crcByte, exec_crcByte⟩

/-- Settles O25, by the decoding and the next state of each read. -/
theorem readCrcAndReadLen : Obligations.ReadCrcAndReadLen :=
  ⟨fun _ => decode_of_select_rdCrc, exec_rdCrc, fun _ => decode_of_select_rdLen, exec_rdLen⟩

end Sys2Proof.Proofs
end

section
/-! The CRC function (40_crc.md R80 to R86, R92): it is linear over XOR, so a byte is one look-up in the table, and the
other forms of it agree with R81. -/

namespace Sys2Proof.Machine

/-! ### Linearity (R92) -/

/-- The polynomial's share of a round is linear in the bit that selects it. -/
theorem ite_crcPoly_xor (p q : Bool) :
    (if (p ^^ q) = true then crcPoly else 0#16) = (if p then crcPoly else 0#16) ^^^ (if q then crcPoly else 0#16) := by
  cases p
  · simp
  · cases q
    all_goals simp

theorem crcRound_xor (a b : Half) : crcRound (a ^^^ b) = crcRound a ^^^ crcRound b := by
  simp only [crcRound_eq, BitVec.getLsbD_xor, BitVec.shiftLeft_xor_distrib, ite_crcPoly_xor]
  ac_rfl

theorem crcRounds_xor (n : Nat) (a b : Half) : crcRounds n (a ^^^ b) = crcRounds n a ^^^ crcRounds n b := by
  induction n generalizing a b with
  | zero => rfl
  | succ n ih => rw [crcRounds_succ, crcRound_xor, ih, ← crcRounds_succ, ← crcRounds_succ]

/-- A function of an accumulator and a byte that is linear over XOR in the two together. -/
def XorLinear (f : Half → Byte → Half) : Prop :=
  ∀ (a b : Half) (d e : Byte), f (a ^^^ b) (d ^^^ e) = f a d ^^^ f b e

theorem crcByte_xorLinear : XorLinear crcByte := by
  intro a b d e
  simp only [crcByte, highPlaced_xor, ← crcRounds_xor]
  congr 1
  ac_rfl

theorem map_zero_of_map_xor {w : Nat} {f : BitVec w → Half} (hf : ∀ x y, f (x ^^^ y) = f x ^^^ f y) :
    f 0#w = 0x0000#16 := by
  have h := hf 0#w 0#w
  rwa [BitVec.xor_self, BitVec.xor_self] at h

/-- Two linear functions of a word that agree on its single bits agree: the set bits, all below `n`, are taken off from the
top. -/
theorem eq_of_eq_on_bits {w : Nat} {f g : BitVec w → Half} (hf : ∀ x y, f (x ^^^ y) = f x ^^^ f y)
    (hg : ∀ x y, g (x ^^^ y) = g x ^^^ g y) (hbit : ∀ k < w, f (BitVec.twoPow w k) = g (BitVec.twoPow w k))
    (n : Nat) (x : BitVec w) (hx : ∀ k, n ≤ k → x.getLsbD k = false) : f x = g x := by
  induction n generalizing x with
  | zero =>
    have hzero : x = 0#w := BitVec.eq_of_getLsbD_eq fun k _ => (hx k k.zero_le).trans BitVec.getLsbD_zero.symm
    rw [hzero, map_zero_of_map_xor hf, map_zero_of_map_xor hg]
  | succ n ih =>
    have hclear (y : BitVec w) (hn : y.getLsbD n = false) (hy : ∀ k, n < k → y.getLsbD k = x.getLsbD k) : f y = g y :=
      ih y fun k hk => (Nat.eq_or_lt_of_le hk).elim (fun e => e ▸ hn) fun hlt => (hy k hlt).trans (hx k hlt)
    cases hn : x.getLsbD n with
    | false => exact hclear x hn fun _ _ => rfl
    | true =>
      have hw : n < w := BitVec.lt_of_getLsbD hn
      have hrest : f (x ^^^ BitVec.twoPow w n) = g (x ^^^ BitVec.twoPow w n) := by
        refine hclear _ (by simp [hn, hw]) fun k hk => ?_
        simp [Nat.ne_of_lt hk]
      have hsplit : x = (x ^^^ BitVec.twoPow w n) ^^^ BitVec.twoPow w n := by
        rw [BitVec.xor_assoc, BitVec.xor_self, BitVec.xor_zero]
      rw [hsplit, hf, hg, hrest, hbit n hw]

/-- Two functions that are linear in accumulator and byte agree if they agree on each single bit of either. -/
theorem XorLinear.eq_of_bits {f g : Half → Byte → Half} (hf : XorLinear f) (hg : XorLinear g)
    (hacc : ∀ k < 16, f (BitVec.twoPow 16 k) 0x00#8 = g (BitVec.twoPow 16 k) 0x00#8)
    (hbyte : ∀ k < 8, f 0x0000#16 (BitVec.twoPow 8 k) = g 0x0000#16 (BitVec.twoPow 8 k)) (a : Half) (d : Byte) :
    f a d = g a d := by
  have ha : f a 0x00#8 = g a 0x00#8 :=
    eq_of_eq_on_bits (f := fun x => f x 0x00#8) (g := fun x => g x 0x00#8) (fun x y => hf x y 0x00#8 0x00#8)
      (fun x y => hg x y 0x00#8 0x00#8) hacc 16 a fun k hk => BitVec.getLsbD_of_ge a k hk
  have hd : f 0x0000#16 d = g 0x0000#16 d :=
    eq_of_eq_on_bits (hf 0x0000#16 0x0000#16) (hg 0x0000#16 0x0000#16) hbyte 8 d fun k hk => BitVec.getLsbD_of_ge d k hk
  have hsplit {h : Half → Byte → Half} (hh : XorLinear h) : h a d = h a 0x00#8 ^^^ h 0x0000#16 d := by
    rw [← hh, BitVec.xor_zero, BitVec.zero_xor]
  rw [hsplit hf, hsplit hg, ha, hd]

/-! ### The two bytes of an accumulator -/

/-- An accumulator is its high byte and its low byte, each in its place. -/
theorem half_eq_bytes (a : Half) : a = (a.extractLsb' 8 8 ++ 0x00#8) ^^^ (0x00#8 ++ a.extractLsb' 0 8) := by
  have hbytes : a.extractLsb' 8 8 ++ a.extractLsb' 0 8 = a.extractLsb' 0 16 :=
    BitVec.extractLsb'_append_extractLsb'_eq_extractLsb' rfl
  rw [BitVec.xor_append, BitVec.xor_zero, BitVec.zero_xor, hbytes, BitVec.extractLsb'_eq_self]

/-- Shifted by eight, an accumulator holds its low byte in the high byte. -/
theorem shiftLeft_eight (a : Half) : a <<< 8 = a.extractLsb' 0 8 ++ 0x00#8 := by
  apply BitVec.eq_of_getLsbD_eq
  intro i hi
  rw [BitVec.getLsbD_shiftLeft, BitVec.getLsbD_append]
  by_cases h : i < 8
  · simp [h]
  · have hlow : i - 8 < 8 := by omega
    simp [h, hi, hlow]

/-! ### One look-up per byte (R84) -/

theorem crcRound_of_top_clear {a : Half} (h : a.getLsbD 15 = false) : crcRound a = a <<< 1 := by
  rw [crcRound_eq, h, if_neg Bool.false_ne_true, BitVec.xor_zero]

/-- Rounds only shift while the bits that leave the accumulator are 0 (R80). -/
theorem crcRounds_eq_shiftLeft {n : Nat} {a : Half} (h : a.toNat * 2 ^ n < 2 ^ 16) : crcRounds n a = a <<< n := by
  induction n generalizing a with
  | zero => simp
  | succ n ih =>
    replace h : a.toNat * 2 * 2 ^ n < 2 ^ 16 := by rwa [Nat.pow_succ', ← Nat.mul_assoc] at h
    have hlt : a.toNat * 2 < 2 ^ 16 := Nat.lt_of_le_of_lt (Nat.le_mul_of_pos_right _ (Nat.two_pow_pos n)) h
    have htop : a.getLsbD 15 = false := Nat.testBit_lt_two_pow (by omega)
    have hdouble : (a <<< 1).toNat = a.toNat * 2 := by
      rw [BitVec.toNat_shiftLeft, Nat.shiftLeft_eq, Nat.mod_eq_of_lt hlt]
    rw [crcRounds_succ, crcRound_of_top_clear htop, ih (hdouble ▸ h), ← BitVec.shiftLeft_add, Nat.add_comm]

/-- Eight rounds move the low byte up and XOR the entry that the high byte selects (R84). -/
theorem crcRounds_eight (a : Half) : crcRounds 8 a = (a <<< 8) ^^^ crcEntry (a.extractLsb' 8 8) := by
  have hlow : crcRounds 8 (0x00#8 ++ a.extractLsb' 0 8) = a <<< 8 := by
    have hlt := (a.extractLsb' 0 8).isLt
    rw [crcRounds_eq_shiftLeft, shiftLeft_eight, shiftLeft_eight, BitVec.extractLsb'_append_eq_right]
    rw [BitVec.toNat_append, BitVec.toNat_ofNat, Nat.zero_mod, Nat.zero_shiftLeft, Nat.zero_or]
    omega
  calc crcRounds 8 a
    _ = crcRounds 8 ((a.extractLsb' 8 8 ++ 0x00#8) ^^^ (0x00#8 ++ a.extractLsb' 0 8)) :=
      congrArg (crcRounds 8) (half_eq_bytes a)
    _ = crcEntry (a.extractLsb' 8 8) ^^^ (a <<< 8) := by rw [crcRounds_xor, hlow, ← crcEntry_eq]
    _ = (a <<< 8) ^^^ crcEntry (a.extractLsb' 8 8) := BitVec.xor_comm ..

theorem crcEntry_xor (x y : Byte) : crcEntry (x ^^^ y) = crcEntry x ^^^ crcEntry y := by
  rw [crcEntry_eq, crcEntry_eq, crcEntry_eq, highPlaced_xor, crcRounds_xor]

/-- A byte is one look-up: the low byte moves up, and the high byte with `d` selects the entry (R84). -/
theorem crcByte_eq_lookup (a : Half) (d : Byte) :
    crcByte a d = (a <<< 8) ^^^ crcEntry (a.extractLsb' 8 8 ^^^ d) := by
  rw [crcByte, crcRounds_xor, ← crcEntry_eq, crcRounds_eight, crcEntry_xor, BitVec.xor_assoc]

/-! ### The other forms (R83, R85, R86) -/

theorem crcRounds_succ_last (n : Nat) (a : Half) : crcRounds (n + 1) a = crcRound (crcRounds n a) := by
  induction n generalizing a with
  | zero => rfl
  | succ n ih => rw [crcRounds_succ, ih, ← crcRounds_succ]

/-- The shift register holds the rounds done, and its count of them (R86). -/
theorem repeat_serialClock (n k : Nat) (a : Half) : Nat.repeat serialClock n (a, k) = (crcRounds n a, k + n) := by
  induction n with
  | zero => rfl
  | succ n ih => rw [Nat.repeat, ih, serialClock, ← crcRounds_succ_last, Nat.add_assoc]

theorem crcByteSerial_eq (a : Half) (d : Byte) : crcByteSerial a d = crcByte a d :=
  congrArg Prod.fst (repeat_serialClock 8 0 _)

theorem xorTaps_cons (c : Half) (d : Byte) (k : Nat) (cs ds : List Nat) :
    xorTaps c d (k :: cs) ds = (c.getLsbD k ^^ xorTaps c d cs ds) := rfl

theorem xorTaps_nil_cons (c : Half) (d : Byte) (k : Nat) (ds : List Nat) :
    xorTaps c d [] (k :: ds) = (d.getLsbD k ^^ xorTaps c d [] ds) := rfl

/-- Taps are linear, being an XOR of bits. -/
theorem xorTaps_xor (a b : Half) (d e : Byte) (cs ds : List Nat) :
    xorTaps (a ^^^ b) (d ^^^ e) cs ds = (xorTaps a d cs ds ^^ xorTaps b e cs ds) := by
  induction cs with
  | nil =>
    induction ds with
    | nil => rfl
    | cons k ds ih =>
      simp only [xorTaps_nil_cons, ih, BitVec.getLsbD_xor, Bool.xor_assoc, Bool.xor_left_comm (e.getLsbD k)]
  | cons k cs ih =>
    simp only [xorTaps_cons, ih, BitVec.getLsbD_xor, Bool.xor_assoc, Bool.xor_left_comm (b.getLsbD k)]

theorem crcByteParallel_xorLinear : XorLinear crcByteParallel := by
  intro a b d e
  simp only [crcByteParallel, xorTaps_xor, ← BitVec.ofBool_xor_ofBool, ← BitVec.xor_append]

/-- The XOR network and R81 are linear, and agree on each single bit of the accumulator and of the byte (R85). -/
theorem crcByteParallel_eq (a : Half) (d : Byte) : crcByteParallel a d = crcByte a d :=
  crcByteParallel_xorLinear.eq_of_bits crcByte_xorLinear (by decide) (by decide) a d

/-- The unmasked accumulator, masked, is the accumulator: a round commutes with masking (R83). -/
theorem ofNat_crcRoundUnmasked (a : Nat) : BitVec.ofNat 16 (crcRoundUnmasked a) = crcRound (BitVec.ofNat 16 a) := by
  have htop : (BitVec.ofNat 16 a).getLsbD 15 = a.testBit 15 := BitVec.getLsbD_ofNat 16 a 15
  have hdouble : BitVec.ofNat 16 (2 * a) = BitVec.ofNat 16 a <<< 1 := by
    apply BitVec.eq_of_toNat_eq
    rw [BitVec.toNat_shiftLeft, Nat.shiftLeft_eq, BitVec.toNat_ofNat, BitVec.toNat_ofNat]
    omega
  rw [crcRoundUnmasked, crcRound, htop]
  split
  · rw [BitVec.ofNat_xor, hdouble]
    rfl
  · exact hdouble

theorem ofNat_crcRoundsUnmasked (n a : Nat) :
    BitVec.ofNat 16 (crcRoundsUnmasked n a) = crcRounds n (BitVec.ofNat 16 a) := by
  induction n generalizing a with
  | zero => rfl
  | succ n ih => rw [crcRoundsUnmasked, ih, ofNat_crcRoundUnmasked, ← crcRounds_succ]

theorem crcByteMaskedLate_eq (a : Half) (d : Byte) : crcByteMaskedLate a d = crcByte a d := by
  have hplaced : BitVec.ofNat 16 (d.toNat * 256) = d ++ 0x00#8 := by
    have hd := d.isLt
    apply BitVec.eq_of_toNat_eq
    rw [BitVec.toNat_append, BitVec.toNat_ofNat, BitVec.toNat_ofNat, Nat.zero_mod, Nat.or_zero, Nat.shiftLeft_eq]
    omega
  rw [crcByteMaskedLate, ofNat_crcRoundsUnmasked, BitVec.ofNat_xor, BitVec.ofNat_toNat, BitVec.setWidth_eq, hplaced]
  rfl

theorem crcByteBy_eq (impl : CrcImpl) (a : Half) (d : Byte) : crcByteBy impl a d = crcByte a d := by
  cases impl with
  | serial => exact crcByteSerial_eq a d
  | table => exact (crcByte_eq_lookup a d).symm
  | parallel => exact crcByteParallel_eq a d

/-! ### Residue (R92) -/

/-- Feeding an accumulator its own high byte selects the entry 0. -/
theorem crcByte_highByte (a : Half) : crcByte a (a.extractLsb' 8 8) = a <<< 8 := by
  have hzero : crcEntry 0x00#8 = 0x0000#16 := by rw [crcEntry_eq]; decide
  rw [crcByte_eq_lookup, BitVec.xor_self, hzero, BitVec.xor_zero]

theorem crcFeed_ownBytes (a : Half) : crcFeed a [a.extractLsb' 8 8, a.extractLsb' 0 8] = 0x0000#16 := by
  have hlow : a.extractLsb' 0 8 = (a <<< 8).extractLsb' 8 8 := by
    rw [shiftLeft_eight, BitVec.extractLsb'_append_eq_left]
  rw [crcFeed_cons, crcByte_highByte, hlow, crcFeed_cons, crcByte_highByte, ← BitVec.shiftLeft_add]
  exact BitVec.shiftLeft_eq_zero (by decide)

end Sys2Proof.Machine

namespace Sys2Proof.Proofs

open Sys2Proof.Machine

/-- Settles O18: the definitions, and a sequence fed in two parts. -/
theorem crcOfRoundByteAndSequence : Obligations.CrcOfRoundByteAndSequence :=
  ⟨fun _ => rfl, fun _ _ => rfl, rfl, crc16_concat⟩

/-- Settles O21: a round is linear, so eight are, and placing the byte is. -/
theorem crcByteIsLinear : Obligations.CrcByteIsLinear := crcByte_xorLinear

/-- Settles O20: masking commutes with each round. -/
theorem maskingOnceAfterEightRoundsAgrees : Obligations.MaskingOnceAfterEightRoundsAgrees := crcByteMaskedLate_eq

/-- Settles O22: each of the two bytes is the accumulator's own high byte when it is fed, and shifts it out. -/
theorem crcResidueIsZero : Obligations.CrcResidueIsZero := by
  intro s
  rw [crc16_append, crcFeed_ownBytes]

/-- Settles O19: the look-up follows from linearity, and CRC_BYTE runs R81, which each form equals. -/
theorem everyCrcImplementationAgrees : Obligations.EveryCrcImplementationAgrees := by
  refine ⟨crcEntry_eq, crcByte_eq_lookup, crcByteBy_eq, fun impl d s => ?_⟩
  rw [crcByteBy_eq]
  exact exec_crcByte d s

end Sys2Proof.Proofs
end

section
/-! The three frame layouts as bytes and as register words (41_frame.md R112 to R115). -/

namespace Sys2Proof.Machine

/-! ### Words composed of bytes and of halves -/

/-- A word of four bytes is a word of two halves. -/
theorem append_bytes_eq_append_halves (b3 b2 b1 b0 : Byte) :
    (b3 ++ b2 ++ b1 ++ b0 : Word) = ((b3 ++ b2 : Half) ++ (b1 ++ b0 : Half) : Word) :=
  BitVec.append_assoc

/-- A word of two halves is the upper half shifted into place, ORed with the lower. -/
theorem append_halves_eq_or (x y : Half) : (x ++ y : Word) = (x.setWidth 32 <<< 16) ||| y.setWidth 32 := by
  rw [BitVec.append_def, BitVec.shiftLeftZeroExtend_eq, BitVec.setWidth'_eq]

/-! ### The Flash header's words (R115) -/

theorem frameLoWord_flashFrame (length offset crc : Half) :
    frameLoWord (flashFrame length offset crc) = length ++ (0x00#8 ++ 0x01#8 : Half) :=
  (append_bytes_eq_append_halves ..).trans (congrArg (· ++ (0x00#8 ++ 0x01#8 : Half)) (highByte_append_lowByte length))

theorem frameHiWord_flashFrame (length offset crc : Half) :
    frameHiWord (flashFrame length offset crc) = crc ++ offset :=
  calc frameHiWord (flashFrame length offset crc)
    _ = ((highByte crc ++ lowByte crc : Half) ++ (highByte offset ++ lowByte offset : Half) : Word) :=
      append_bytes_eq_append_halves ..
    _ = crc ++ offset := by rw [highByte_append_lowByte, highByte_append_lowByte]

end Sys2Proof.Machine

namespace Sys2Proof.Proofs

open Sys2Proof.Machine

/-- Settles O28: the layouts hold these bytes as they stand. -/
theorem frameLayouts : Obligations.FrameLayouts := ⟨fun _ _ _ => rfl, rfl, rfl⟩

/-- Settles O29: each word of the Flash header is two halves, and each other word is a constant. -/
theorem frameLayoutsAsRegisterWords : Obligations.FrameLayoutsAsRegisterWords := by
  refine ⟨fun L O C => ?_, by decide, by decide, by decide, by decide⟩
  have hbytes : L ++ 0x00#8 ++ 0x01#8 = (L ++ (0x00#8 ++ 0x01#8 : Half) : Word) := BitVec.append_assoc
  rw [frameLoWord_flashFrame, frameHiWord_flashFrame]
  exact ⟨hbytes.symm, append_halves_eq_or L 0x0001#16, rfl, append_halves_eq_or C O⟩

end Sys2Proof.Proofs
end

section
/-! ENC_FLASH, ENC_RESET, ENC_LOAD, RD_FRAME_LO and RD_FRAME_HI (41_frame.md R116 to R120): what a word of each encoding
decodes to, and the whole next state. -/

namespace Sys2Proof

/-! ### Decoding by match and mask (R66) -/

variable {w : TW}

/-- OFFSET of a word's data, as bits of the word (R60, R62). -/
theorem offsetField_twData (w : TW) : offsetField (twData w) = w.extractLsb' 16 16 := by
  ext i hi
  simp [offsetField, twData]

/-- A word that matches a CMD write with `op` decodes to what the decoder answers for that OP. -/
theorem decode_of_select_op {op : Byte} {i : Instr}
    (h : w &&& 0x7FF000000FF#43 = mkTW 2#2 true 0x00#8 (op.setWidth 32))
    (hcmd : opField (twData w) = op → decodeCmd (twData w) = i) : decode w = i := by
  obtain ⟨e, hop⟩ := decode_of_select_command h (twSize_mkTW ..) (twAddr_mkTW ..) (twWrite_mkTW ..)
  rw [twData_mkTW] at hop
  exact e.trans (hcmd (hop.trans (byteField_setWidth op)))

theorem decode_of_select_encFlash (h : w &&& 0x7FF000000FF#43 = 0x50000000001#43) :
    decode w = .encFlash (w.extractLsb' 16 16) :=
  decode_of_select_op (op := 0x01#8) h fun hop => by simp [decodeCmd, hop, offsetField_twData]

theorem decode_of_select_encReset (h : w &&& 0x7FF000000FF#43 = 0x50000000002#43) : decode w = .encReset :=
  decode_of_select_op (op := 0x02#8) h fun hop => by simp [decodeCmd, hop]

theorem decode_of_select_encLoad (h : w &&& 0x7FF000000FF#43 = 0x50000000003#43) : decode w = .encLoad :=
  decode_of_select_op (op := 0x03#8) h fun hop => by simp [decodeCmd, hop]

theorem decode_of_select_rdFrameLo (h : w &&& 0x7FF00000000#43 = 0x41400000000#43) : decode w = .rdFrameLo :=
  (decode_of_select_read h (by decide) (by decide) (by decide)).trans (by decide)

theorem decode_of_select_rdFrameHi (h : w &&& 0x7FF00000000#43 = 0x41800000000#43) : decode w = .rdFrameHi :=
  (decode_of_select_read h (by decide) (by decide) (by decide)).trans (by decide)

namespace Machine

/-! ### The next state of ENC_FLASH, on both sides of LEN_OVF -/

variable {s : State}

/-- With LEN_OVF = 0, ENC_FLASH builds the header of LEN_CNT, OFFSET and CRC_ACC (R116). -/
theorem exec_encFlash_of_fits (hov : s.lenOvf = false) (o : Half) :
    exec (.encFlash o) s = .next (s.putFrame (flashFrame s.lenCnt o s.crcAcc)) :=
  if_neg (by simp [hov])

/-- With LEN_OVF = 1, ENC_FLASH is refused (R116, R163). -/
theorem exec_encFlash_of_overflow (hov : s.lenOvf = true) (o : Half) :
    exec (.encFlash o) s = .next (s.raise .lenRefused) :=
  if_pos hov

end Machine

end Sys2Proof

namespace Sys2Proof.Proofs

open Sys2Proof.Machine

/-- Settles O31, by the decoding and the two next states of ENC_FLASH. -/
theorem encFlashBuildsOrIsRefused : Obligations.EncFlashBuildsOrIsRefused :=
  ⟨fun _ => decode_of_select_encFlash, fun o _ hov => exec_encFlash_of_fits hov o,
    fun o _ hov => exec_encFlash_of_overflow hov o⟩

/-- Settles O32: the OP field leads the decoder to each command, whose meaning is the record update. -/
theorem encResetAndEncLoadBuildTheirFrames : Obligations.EncResetAndEncLoadBuildTheirFrames :=
  ⟨fun _ => decode_of_select_encReset, fun _ => rfl, fun _ => decode_of_select_encLoad, fun _ => rfl⟩

/-- Settles O33: the offset leads the decoder to each read, which answers its register's word. -/
theorem readFrameWords : Obligations.ReadFrameWords :=
  ⟨fun _ => decode_of_select_rdFrameLo, fun _ => rfl, fun _ => decode_of_select_rdFrameHi, fun _ => rfl⟩

end Sys2Proof.Proofs
end

section
/-! The frame buffer holds the reset contents or a frame some command built, and FRAME_VALID = 1 only over a built frame
(10_state.md R26, R27; 41_frame.md R110, R111). -/

namespace Sys2Proof.Machine

/-! ### The frames that commands build -/

/-- One of the three layouts (R112 to R114). -/
def IsBuiltFrame (f : Vector Byte 8) : Prop :=
  (∃ length offset crc, f = flashFrame length offset crc) ∨ f = resetFrame ∨ f = loadFrame

variable {i : Instr} {s t : State} {f : Vector Byte 8}

/-- The command code tells a built frame from the reset contents (R22, R111). -/
theorem IsBuiltFrame.ne_reset (hf : IsBuiltFrame f) : f ≠ State.reset.frame := by
  have hcode : f[0] ≠ 0x00#8 := by
    obtain ⟨length, offset, crc, rfl⟩ | rfl | rfl := hf
    · rw [flashFrame_code]; decide
    · rw [resetFrame_code]; decide
    · rw [loadFrame_code]; decide
  rintro rfl
  exact hcode rfl

/-- The three commands put one of the three layouts into the buffer (R116 to R118). -/
theorem exec_of_buildsFrame (h : BuildsFrame i s) : ∃ f, IsBuiltFrame f ∧ exec i s = .next (s.putFrame f) := by
  obtain ⟨o, rfl, hov⟩ | rfl | rfl := h
  · exact ⟨_, .inl ⟨s.lenCnt, o, s.crcAcc, rfl⟩, exec_encFlash_of_fits hov o⟩
  · exact ⟨resetFrame, .inr (.inl rfl), rfl⟩
  · exact ⟨loadFrame, .inr (.inr rfl), rfl⟩

/-! ### The invariant -/

theorem IsBuiltFrame.frameInv_putFrame (hf : IsBuiltFrame f) (s : State) : (s.putFrame f).FrameInv :=
  ⟨.inr hf, fun _ => hf.ne_reset⟩

/-- The invariant speaks of the buffer, and of FRAME_VALID only where it is 1. -/
theorem State.FrameInv.congr (hs : s.FrameInv) (hframe : t.frame = s.frame)
    (hvalid : t.frameValid = true → s.frameValid = true) : t.FrameInv where
  legal := hframe ▸ hs.legal
  built ht := hframe ▸ hs.built (hvalid ht)

theorem State.SameBlock.frameInv (h : s.SameBlock t) (hs : s.FrameInv) : t.FrameInv :=
  hs.congr h.frame fun ht => h.frameValid ▸ ht

theorem State.frameInv_blockReset (s : State) : s.blockReset.FrameInv :=
  Proofs.resetFrameBufferIsLegal.congr rfl id

/-- An access keeps the invariant: it keeps the frame, builds one, or only invalidates it (R26, R27). -/
theorem exec_frameInv (hs : s.FrameInv) (h : exec i s = .next t) : t.FrameInv := by
  obtain ⟨hframe, hvalid⟩ | ⟨hbuilds, -⟩ | ⟨-, hframe, hinvalid⟩ := exec_frame_cases h
  · exact hs.congr hframe fun ht => hvalid ▸ ht
  · obtain ⟨f, hf, he⟩ := exec_of_buildsFrame hbuilds
    cases he.symm.trans h
    exact hf.frameInv_putFrame s
  · exact hs.congr hframe fun ht => Bool.noConfusion (hinvalid.symm.trans ht)

/-- A step keeps the invariant: an edge without a request keeps the block, and a reset edge restores it (R190). -/
theorem step_frameInv (hs : s.FrameInv) (h : step s = .next t) : t.FrameInv := by
  obtain ⟨-, rfl⟩ | ⟨rest, -, rfl⟩ | ⟨r, rest, -, hexec⟩ | ⟨p, rest, -, rfl⟩ := step_cases h
  · exact s.sameBlock_idle.frameInv hs
  · exact (s.takeInput rest).sameBlock_idle.frameInv ((s.sameBlock_takeInput rest).frameInv hs)
  · exact exec_frameInv ((s.sameBlock_takeInput rest).frameInv hs) hexec
  · exact (s.takeInput rest).frameInv_blockReset

end Sys2Proof.Machine

namespace Sys2Proof.Proofs

open Sys2Proof.Machine

/-- Settles O35, by the kind of the step and, for an access, what it does to the buffer. -/
theorem frameBufferStaysLegal : Obligations.FrameBufferStaysLegal := fun _ _ hs h => step_frameInv hs h

end Sys2Proof.Proofs
end

section
/-! CRC_INIT, a payload's bytes and ENC_FLASH, one after another (41_frame.md R122). -/

namespace Sys2Proof.Machine

/-! ### A run, access by access (R50) -/

variable {i : Instr} {is js : List Instr} {s t : State} {fed : List Byte}

theorem execAll_cons (h : exec i s = .next t) : execAll (i :: is) s = execAll is t := by
  rw [execAll, h]

theorem execAll_append (h : execAll is s = .next t) : execAll (is ++ js) s = execAll js t := by
  induction is generalizing s with
  | nil => cases h; rfl
  | cons i is ih =>
    obtain ⟨u, hu⟩ := exec_completes i s
    rw [execAll_cons hu] at h
    rw [List.cons_append, execAll_cons hu, ih h]

/-- CRC_BYTE once per byte of `p` completes, and extends the sequence fed by `p` (R88, R91). -/
theorem execAll_crcBytes (hs : s.Tracks fed) (p : List Byte) :
    ∃ t, execAll (p.map .crcByte) s = .next t ∧ t.Tracks (fed ++ p) := by
  induction p generalizing s fed with
  | nil => exact ⟨s, rfl, by rwa [List.append_nil]⟩
  | cons b p ih =>
    obtain ⟨t, ht, htracks⟩ := ih (hs.byteFed b)
    exact ⟨t, (execAll_cons rfl).trans ht, by rwa [List.append_cons]⟩

/-- CRC_INIT and then the bytes of `p` complete, and leave the registers showing exactly `p` (R87, R91). -/
theorem execAll_payload (p : List Byte) (s : State) :
    ∃ t, execAll (.crcInit :: p.map .crcByte) s = .next t ∧ t.Tracks p := by
  obtain ⟨t, ht, htracks⟩ := execAll_crcBytes s.tracks_crcInitialised p
  exact ⟨t, (execAll_cons rfl).trans ht, htracks⟩

/-! ### ENC_FLASH after the payload -/

/-- Below 65536 bytes, ENC_FLASH builds the header of the sequence fed (R116). -/
theorem State.Tracks.encFlash_of_fits (hs : s.Tracks fed) (hlen : fed.length < 65536) (o : Half) :
    exec (.encFlash o) s = .next (s.putFrame (flashFrame (BitVec.ofNat 16 fed.length) o (crc16 fed))) := by
  have hov : s.lenOvf = false := hs.ovf.trans (decide_eq_false (by omega))
  rw [exec_encFlash_of_fits hov, hs.len, hs.crc]

/-- From 65536 bytes on, ENC_FLASH is refused (R163). -/
theorem State.Tracks.encFlash_of_overflow (hs : s.Tracks fed) (hlen : 65536 ≤ fed.length) (o : Half) :
    exec (.encFlash o) s = .next (s.raise .lenRefused) :=
  exec_encFlash_of_overflow (hs.ovf.trans (decide_eq_true hlen)) o

end Sys2Proof.Machine

namespace Sys2Proof.Proofs

open Sys2Proof.Machine

/-- Settles O34: the registers show exactly the payload when ENC_FLASH comes, and its length decides which of the two
answers it gives; each field of the header is its high byte and its low byte. -/
theorem flashHeaderDescribesThePayload : Obligations.FlashHeaderDescribesThePayload := by
  intro p o s
  obtain ⟨u, hu, hp⟩ := execAll_payload p s
  have hrun {t : State} (ht : exec (.encFlash o) u = .next t) :
      execAll (.crcInit :: p.map .crcByte ++ [.encFlash o]) s = .next t := (execAll_append hu).trans (execAll_cons ht)
  by_cases hlen : p.length < 65536
  · refine ⟨_, hrun (hp.encFlash_of_fits hlen o), fun _ => ⟨rfl, ?_⟩, fun hge => absurd hlen (Nat.not_lt.mpr hge)⟩
    exact ⟨highByte_append_lowByte _, highByte_append_lowByte o, highByte_append_lowByte _⟩
  · exact ⟨_, hrun (hp.encFlash_of_overflow (Nat.not_lt.mp hlen) o), fun hlt => absurd hlt hlen, fun _ => ⟨rfl, rfl⟩⟩

end Sys2Proof.Proofs
end

section
/-! Control, status, ignored and reserved accesses (42_control.md R140 to R146): what a word of each encoding decodes to,
and the whole next state. -/

namespace Sys2Proof

/-! ### Decoding by match and mask (R66) -/

variable {w : TW}

theorem decode_of_select_nop (h : w &&& 0x7FF000000FF#43 = 0x50000000000#43) : decode w = .nop :=
  decode_of_select_op (op := 0x00#8) h fun hop => by simp [decodeCmd, hop]

theorem decode_of_select_rdStatus (h : w &&& 0x7FF00000000#43 = 0x41000000000#43) : decode w = .rdStatus :=
  (decode_of_select_read h (by decide) (by decide) (by decide)).trans (by decide)

theorem decode_of_select_rdCmd (h : w &&& 0x7FF00000000#43 = 0x40000000000#43) : decode w = .rdCmd :=
  (decode_of_select_read h (by decide) (by decide) (by decide)).trans (by decide)

theorem decode_of_select_rdData (h : w &&& 0x7FF00000000#43 = 0x40400000000#43) : decode w = .rdData :=
  (decode_of_select_read h (by decide) (by decide) (by decide)).trans (by decide)

/-- A word that matches an aligned 32-bit write to `off` decodes to what the decoder answers for that offset. -/
theorem decode_of_select_writeAt {off : Offset} (h : w &&& 0x7FF00000000#43 = mkTW 2#2 true off 0#32)
    (halign : offLow off = 0#2) : decode w = decodeWrite off (twData w) := by
  have e := decode_of_select_write h (twSize_mkTW ..) (by rwa [twAddr_mkTW]) (twWrite_mkTW ..)
  rwa [twAddr_mkTW] at e

/-- CLR_ERR keeps its whole data as the operand (R142). -/
theorem decode_of_select_clrErr (h : w &&& 0x7FF00000000#43 = 0x51000000000#43) : decode w = .clrErr (twData w) :=
  decode_of_select_writeAt (off := 0x10#8) h rfl

theorem decode_of_select_wrCrcIgn (h : w &&& 0x7FF00000000#43 = 0x50800000000#43) : decode w = .wrCrcIgn :=
  decode_of_select_writeAt (off := 0x08#8) h rfl

theorem decode_of_select_wrLenIgn (h : w &&& 0x7FF00000000#43 = 0x50C00000000#43) : decode w = .wrLenIgn :=
  decode_of_select_writeAt (off := 0x0C#8) h rfl

theorem decode_of_select_wrFrameLoIgn (h : w &&& 0x7FF00000000#43 = 0x51400000000#43) : decode w = .wrFrameLoIgn :=
  decode_of_select_writeAt (off := 0x14#8) h rfl

theorem decode_of_select_wrFrameHiIgn (h : w &&& 0x7FF00000000#43 = 0x51800000000#43) : decode w = .wrFrameHiIgn :=
  decode_of_select_writeAt (off := 0x18#8) h rfl

/-- A CMD write whose OP is none of the five named ones keeps that OP (R65, R143). -/
theorem decode_of_select_illegalCmd (h : w &&& 0x7FF00000000#43 = 0x50000000000#43)
    (hop : w.extractLsb' 0 8 ∉ namedOps) : decode w = .illegalCmd (w.extractLsb' 0 8) := by
  have eop : opField (twData w) = w.extractLsb' 0 8 := byteField_twData w
  rw [← eop] at hop ⊢
  exact (decode_of_select_writeAt (off := 0x00#8) h rfl).trans (decodeCmd_of_reserved hop)

/-! ### Reserved slots (R146) -/

/-- Every register lies below 0x1C (R30). -/
theorem not_mem_mappedOffsets_of_le {off : Offset} (h : 0x1C#8 ≤ off) : off ∉ mappedOffsets := by
  rw [mem_mappedOffsets]
  rintro (rfl | rfl | rfl | rfl | rfl | rfl | rfl)
  all_goals exact absurd h (by decide)

theorem decode_of_select_rdRsv (h : w &&& 0x70300000000#43 = 0x40000000000#43) (hoff : 0x1C#8 ≤ twAddr w) :
    decode w = .rdRsv (twAddr w) := by
  obtain ⟨hsize, hwr, halign⟩ := select_slot h
  exact (decode_of_alignedRead (hsize.trans (by decide)) (halign.trans (by decide)) (hwr.trans (by decide))).trans
    (decodeRead_of_unmapped (not_mem_mappedOffsets_of_le hoff))

theorem decode_of_select_wrRsv (h : w &&& 0x70300000000#43 = 0x50000000000#43) (hoff : 0x1C#8 ≤ twAddr w) :
    decode w = .wrRsv (twAddr w) := by
  obtain ⟨hsize, hwr, halign⟩ := select_slot h
  exact (decode_of_alignedWrite (hsize.trans (by decide)) (halign.trans (by decide)) (hwr.trans (by decide))).trans
    (decodeWrite_of_unmapped (not_mem_mappedOffsets_of_le hoff) _)

namespace Machine

/-! ### The bits of STATUS (R35, R141) -/

theorem State.statusWord_getLsbD_zero (s : State) : s.statusWord.getLsbD 0 = s.frameValid := by
  simp only [State.statusWord, BitVec.getLsbD_append]
  simp

theorem State.statusWord_getLsbD_one (s : State) : s.statusWord.getLsbD 1 = s.lenOvf := by
  simp only [State.statusWord, BitVec.getLsbD_append]
  simp

theorem State.statusWord_getLsbD_two (s : State) : s.statusWord.getLsbD 2 = s.errIllegal := by
  simp only [State.statusWord, BitVec.getLsbD_append]
  simp

theorem State.statusWord_getLsbD_three (s : State) : s.statusWord.getLsbD 3 = s.errLen := by
  simp only [State.statusWord, BitVec.getLsbD_append]
  simp

/-- STATUS reads as zero above its four flags. -/
theorem State.statusWord_high (s : State) : s.statusWord.extractLsb' 4 28 = 0#28 := by
  ext i hi
  have hflags : ¬ 4 + i < 1 ∧ ¬ 4 + i - 1 < 1 ∧ ¬ 4 + i - 1 - 1 < 1 ∧ ¬ 4 + i - 1 - 1 - 1 < 1 := by omega
  simp only [State.statusWord, BitVec.getElem_extractLsb', BitVec.getLsbD_append]
  simp [hflags]

/-! ### The next state of CLR_ERR -/

/-- A set bit of the mask clears its flag, a clear one leaves it (R35). -/
theorem and_not_eq_ite (flag m : Bool) : (flag && !m) = if m = true then false else flag := by
  cases m
  · simp
  · simp

/-- CLR_ERR clears the error bits its mask names and leaves everything else (R142). -/
theorem exec_clrErr (m : Word) (s : State) : exec (.clrErr m) s =
    .next { s with
      errIllegal := if m.getLsbD 2 = true then false else s.errIllegal
      errLen := if m.getLsbD 3 = true then false else s.errLen
      reply := .wrote } := by
  rw [← and_not_eq_ite, ← and_not_eq_ite]
  rfl

end Machine

end Sys2Proof

namespace Sys2Proof.Proofs

open Sys2Proof.Machine

/-- Settles O37: the OP field leads the decoder to NOP, whose meaning is the completed write. -/
theorem nopDoesNothing : Obligations.NopDoesNothing := ⟨fun _ => decode_of_select_nop, fun _ => rfl⟩

/-- Settles O38: the offset leads the decoder to RD_STATUS, which answers the status word, whose bits are the flags. -/
theorem readStatusShowsTheFlags : Obligations.ReadStatusShowsTheFlags :=
  ⟨fun _ => decode_of_select_rdStatus, fun s => ⟨s.statusWord, rfl, s.statusWord_getLsbD_zero, s.statusWord_getLsbD_one,
    s.statusWord_getLsbD_two, s.statusWord_getLsbD_three, s.statusWord_high⟩⟩

/-- Settles O39, by the decoding and the next state of CLR_ERR. -/
theorem clrErrClearsOnlyTheErrorBits : Obligations.ClrErrClearsOnlyTheErrorBits :=
  ⟨fun _ => decode_of_select_clrErr, exec_clrErr⟩

/-- Settles O40: an OP outside the five named ones leads the decoder to ILLEGAL_CMD, whose meaning is the raised event. -/
theorem illegalCommandSetsErrIllegal : Obligations.IllegalCommandSetsErrIllegal :=
  ⟨fun _ => decode_of_select_illegalCmd, fun _ _ => rfl⟩

/-- Settles O41: the offset leads the decoder to each ignored write, whose meaning is the completed write. -/
theorem writesToReadOnlyRegistersAreIgnored : Obligations.WritesToReadOnlyRegistersAreIgnored :=
  ⟨fun _ => ⟨decode_of_select_wrCrcIgn, decode_of_select_wrLenIgn, decode_of_select_wrFrameLoIgn,
    decode_of_select_wrFrameHiIgn⟩, fun _ => ⟨rfl, rfl, rfl, rfl⟩⟩

/-- Settles O42: the offset leads the decoder to each read, which answers 0. -/
theorem writeOnlyRegistersReadAsZero : Obligations.WriteOnlyRegistersReadAsZero :=
  ⟨fun _ => ⟨decode_of_select_rdCmd, decode_of_select_rdData⟩, fun _ => ⟨rfl, rfl⟩⟩

/-- Settles O43: no register lies at 0x1C or above, so an aligned access there goes to its slot, which answers 0 or ignores
the write. -/
theorem reservedSlotsReadAsZeroAndIgnoreWrites : Obligations.ReservedSlotsReadAsZeroAndIgnoreWrites :=
  ⟨fun _ => decode_of_select_rdRsv, fun _ => decode_of_select_wrRsv, fun _ _ => ⟨rfl, rfl⟩⟩

end Sys2Proof.Proofs
end

section
/-! Completion of every access, and the answer to a bus error (60_exceptions.md R160, R162, R166). -/

namespace Sys2Proof.Proofs

open Sys2Proof.Machine

/-- Settles O11: every operation has a next state, and a next state shows ready = 1 and the same queue. -/
theorem everyAccessCompletes : Obligations.EveryAccessCompletes := by
  intro i s
  obtain ⟨t, ht⟩ := exec_completes i s
  exact ⟨t, ht, exec_ready_inputs ht⟩

/-- Settles O14: each of the six operations raises the bus error event, whose whole effect is the reply. -/
theorem busErrorResponse : Obligations.BusErrorResponse :=
  ⟨fun _ _ _ => ⟨rfl, rfl, rfl, rfl, rfl, rfl⟩, rfl, rfl, rfl⟩

end Sys2Proof.Proofs
end

section
/-! The host's commands (60_exceptions.md R172 to R176): each begins with the handshake, so none gets past one that fails. -/

namespace Sys2Proof.Proofs

open Sys2Proof.Machine

/-- Settles O46: the handshake is each command's first action, and its failure is the command's. -/
theorem noCommandFrameWithoutAck : Obligations.NoCommandFrameWithoutAck := by
  intro h hf
  obtain ⟨e, h', he, hgreeted⟩ := handshake_error hf
  exact ⟨fun payload offset => ⟨e, h', HostM.bind_error he, hgreeted⟩, ⟨e, h', HostM.bind_error he, hgreeted⟩,
    ⟨e, h', HostM.bind_error he, hgreeted⟩⟩

end Sys2Proof.Proofs
end

section
/-! `flash_page` with a device that acknowledges (60_exceptions.md R175, R181): its block accesses are the run of R122, and
what it reads back of the frame buffer is the frame in wire order (R47). -/

namespace Sys2Proof.Machine

variable {g h : Session} {p : List Byte} {s t : State} {offset : Half}

/-! ### The run of accesses that builds a payload's header -/

/-- Bytes fed leave the error bits alone (R28, R29). -/
theorem execAll_crcBytes_errorBits (hrun : execAll (p.map .crcByte) s = .next t) :
    t.errIllegal = s.errIllegal ∧ t.errLen = s.errLen := by
  induction p generalizing s with
  | nil => cases hrun; exact ⟨rfl, rfl⟩
  | cons b p ih => exact ih (s := s.byteFed b) hrun

/-- The host takes STATUS for good when FRAME_VALID is set and both error bits are clear (R175). -/
theorem statusGood_statusWord (s : State) :
    statusGood s.statusWord = (s.frameValid && !s.errIllegal && !s.errLen) := by
  rw [statusGood, s.statusWord_getLsbD_zero, s.statusWord_getLsbD_two, s.statusWord_getLsbD_three]

/-- With no error bit set and a payload that fits, ENC_FLASH after the payload leaves the payload's header in the buffer
and a good STATUS (R122, R175). -/
theorem exec_header_built (hill : s.errIllegal = false) (herr : s.errLen = false) (hlen : p.length < 65536)
    (offset : Half) :
    ∃ u t, execAll (p.map .crcByte) s.crcInitialised = .next u ∧ exec (.encFlash offset) u = .next t ∧
      t.reply = .wrote ∧ t.frame = flashFrame (BitVec.ofNat 16 p.length) offset (crc16 p) ∧
      statusGood t.statusWord = true := by
  obtain ⟨u, hrun, hfed⟩ := execAll_crcBytes s.tracks_crcInitialised p
  obtain ⟨hill', herr'⟩ := execAll_crcBytes_errorBits hrun
  refine ⟨u, _, hrun, State.Tracks.encFlash_of_fits (fed := p) hfed hlen offset, rfl, rfl, ?_⟩
  simp [statusGood_statusWord, hill', herr', hill, herr]

/-! ### The same accesses, issued by the host: each changes the session's block alone -/

/-- A write of the table that raises no bus error. -/
theorem blockAccess_wrote {i : Instr} (hi : i.WellFormed) (he : exec i s = .next t) (hr : t.reply = .wrote) :
    blockAccess i { g with block := s } = .ok .wrote { g with block := t } := by
  rw [blockAccess_ok (decode_encode hi) he (by rw [hr]; decide), hr]

/-- Feeding a payload is the run of its CRC_BYTE accesses (R88, R181). -/
theorem feedPayload_ok (hrun : execAll (p.map .crcByte) s = .next t) :
    feedPayload p { g with block := s } = .ok () { g with block := t } := by
  induction p generalizing s with
  | nil => cases hrun; rfl
  | cons b p ih =>
    rw [feedPayload, HostM.bind_ok (blockAccess_wrote rfl rfl rfl)]
    exact ih (s := s.byteFed b) hrun

/-- STATUS read by the host (R141). -/
theorem blockRead_status :
    blockRead .rdStatus { g with block := s } = .ok s.statusWord { g with block := s.answerRead .status } :=
  blockRead_ok (r := .status) (decode_encode rfl) rfl

/-- Reading the frame back gives its bytes in wire order (R47, R181). -/
theorem readFrame_ok : readFrame { g with block := s } =
    .ok s.frame.toList { g with block := (s.answerRead .frameLo).answerRead .frameHi } := by
  rw [readFrame, HostM.bind_ok (blockRead_ok (r := .frameLo) (decode_encode rfl) rfl),
    HostM.bind_ok (blockRead_ok (r := .frameHi) (decode_encode rfl) rfl), ← wordBytes_frameWords]
  rfl

/-! ### The channel -/

/-- A transport that takes the next `n + 1` writes takes the first, and then `n` more (R180). -/
theorem takesWrites_succ {n : Nat} {ws : List TxEvent} (hw : ∀ e ∈ ws.take (n + 1), e = .sent) :
    (∀ left, ws.head? ≠ some (.ioError left)) ∧ ∀ e ∈ ws.tail.take n, e = .sent := by
  cases ws with
  | nil => simp
  | cons e ws =>
    rw [List.take_succ_cons, List.forall_mem_cons] at hw
    exact ⟨by simp [hw.1], hw.2⟩

/-- What `flash_page` sends once the header is read back (R175). -/
def sendPage (header payload : List Byte) : HostM Unit := do
  channelWrite header
  requireAck .header
  channelWrite payload
  requireAck .data

/-- Header and payload go out, each answered by an Ack (R175). -/
theorem sendPage_ok {f : List Byte} {rest : List RxEvent} (hrx : g.rx = .byte 0x01#8 :: .byte 0x01#8 :: rest)
    (hw : ∀ e ∈ g.writes.take 2, e = .sent) :
    sendPage f p g = .ok () { g with rx := rest, writes := g.writes.tail.tail, tx := g.tx ++ [f] ++ [p] } := by
  obtain ⟨hfirst, hw'⟩ := takesWrites_succ hw
  obtain ⟨hsecond, -⟩ := takesWrites_succ hw'
  rw [sendPage, HostM.bind_ok (channelWrite_ok hfirst),
    HostM.bind_ok (requireAck_ok (h := { g with writes := g.writes.tail, tx := g.tx ++ [f] }) hrx),
    HostM.bind_ok (channelWrite_ok hsecond)]
  exact requireAck_ok rfl

/-! ### The whole command -/

/-- After the handshake, `flash_page` of a payload that fits comes down to sending the payload's header and the payload:
its block accesses touch nothing but the block (R175, R181). -/
theorem flashPage_eq_sendPage (hgreet : handshake h = .ok () g) (hill : g.block.errIllegal = false)
    (herr : g.block.errLen = false) (hlen : p.length < 65536) :
    ∃ t, flashPage p offset h =
      sendPage (flashFrame (BitVec.ofNat 16 p.length) offset (crc16 p)).toList p { g with block := t } := by
  obtain ⟨u, t, hrun, hexec, hreply, hframe, hgood⟩ := exec_header_built hill herr hlen offset
  have hinit : blockAccess .crcInit g = .ok .wrote { g with block := g.block.crcInitialised } :=
    blockAccess_wrote rfl rfl rfl
  refine ⟨((t.answerRead .status).answerRead .frameLo).answerRead .frameHi, ?_⟩
  rw [flashPage, HostM.bind_ok hgreet, HostM.bind_ok hinit, HostM.bind_ok (feedPayload_ok hrun),
    HostM.bind_ok (blockAccess_wrote rfl hexec hreply),
    HostM.bind_ok blockRead_status, if_pos hgood, ← hframe]
  exact HostM.bind_ok readFrame_ok

end Sys2Proof.Machine

namespace Sys2Proof.Proofs

open Sys2Proof.Machine

/-- Settles O47: the handshake greets, the block builds the payload's header, and the page is sent. -/
theorem flashPageWritesHeaderThenPayload : Obligations.FlashPageWritesHeaderThenPayload := by
  intro h payload offset rest hrx hw hill herr hlen
  obtain ⟨hfirst, hw'⟩ := takesWrites_succ hw
  obtain ⟨t, ht⟩ := flashPage_eq_sendPage (handshake_ok hrx hfirst) hill herr hlen
  refine ⟨_, ht.trans (sendPage_ok rfl hw'), rfl, ?_, ?_⟩
  · simp [← List.drop_one]
  · simp

end Sys2Proof.Proofs
end

section
/-! Block reset (70_reset_and_hazards.md R190 to R192), and what an aligned read answers by its offset (10_state.md R30). -/

namespace Sys2Proof.Machine

/-- An offset that holds no register belongs to a reserved slot (R30). -/
theorem regAt_of_unmapped {off : Offset} (h : off ∉ mappedOffsets) : regAt off = .rsv := by
  simp only [mem_mappedOffsets, not_or] at h
  obtain ⟨hcmd, hdata, hcrc, hlen, hstatus, hlo, hhi⟩ := h
  simp only [regAt, if_neg hcmd, if_neg hdata, if_neg hcrc, if_neg hlen, if_neg hstatus, if_neg hlo, if_neg hhi]

/-- CRC stands at one offset of the window (R30). -/
theorem regAt_eq_crc_iff {off : Offset} : regAt off = .crc ↔ off = 0x08#8 := by
  by_cases hoff : off ∈ mappedOffsets
  · obtain rfl | rfl | rfl | rfl | rfl | rfl | rfl := mem_mappedOffsets.mp hoff
    all_goals decide
  · rw [regAt_of_unmapped hoff]
    exact ⟨(nomatch ·), fun h => absurd (mem_mappedOffsets.mpr (.inr (.inr (.inl h)))) hoff⟩

/-- An aligned 32-bit read answers the register at its offset (R30, R67). -/
theorem exec_decodeRead (off : Offset) (s : State) : exec (decodeRead off) s = .next (s.answerRead (regAt off)) := by
  by_cases hoff : off ∈ mappedOffsets
  · obtain rfl | rfl | rfl | rfl | rfl | rfl | rfl := mem_mappedOffsets.mp hoff
    all_goals rfl
  · rw [decodeRead_of_unmapped hoff, regAt_of_unmapped hoff]
    rfl

/-- Every register reads as 0 after block reset, CRC excepted (R190). -/
theorem State.readReg_reset (r : Reg) :
    State.reset.readReg r = if r = .crc then 0x0000FFFF#32 else 0x00000000#32 := by
  cases r
  all_goals decide

/-- A reset edge leaves the block's seven elements at their reset values (R190). -/
theorem State.sameBlock_blockReset (s : State) : State.reset.SameBlock s.blockReset := ⟨rfl, rfl, rfl, rfl, rfl, rfl, rfl⟩

/-- What an aligned 32-bit read answers after a reset edge (R190). -/
theorem State.answerRead_blockReset (s : State) (off : Offset) :
    s.blockReset.answerRead (regAt off) =
      { s.blockReset with reply := .read (if off = 0x08#8 then 0x0000FFFF#32 else 0x00000000#32) } := by
  rw [State.answerRead, s.sameBlock_blockReset.readReg, State.readReg_reset]
  simp only [regAt_eq_crc_iff]

end Sys2Proof.Machine

namespace Sys2Proof.Proofs

open Sys2Proof.Machine

/-- Settles O10: the step on a reset edge is `State.blockReset`, and a read by offset after it answers a register of the
reset state. -/
theorem blockResetRestoresEveryElement : Obligations.BlockResetRestoresEveryElement := by
  intro s pending rest h
  have hstep : step s = .next (s.takeInput rest).blockReset := step_resetEdge h
  refine ⟨hstep, fun t ht => ?_⟩
  cases hstep.symm.trans ht
  refine ⟨rfl, fun off halign => ?_⟩
  calc exec (decode (encodeRead off)) (s.takeInput rest).blockReset
      = exec (decodeRead off) (s.takeInput rest).blockReset := by rw [decode_encodeRead halign]
    _ = .next ((s.takeInput rest).blockReset.answerRead (regAt off)) := exec_decodeRead off _
    _ = _ := congrArg _ (State.answerRead_blockReset _ off)

end Sys2Proof.Proofs
end
